-- ==== Sys2Proof/Word.lean ====
section
/-! DEFINITION. The bit vectors of the block: bytes and nibbles (00_scope R14, 20_memory R42). -/

namespace Sys2Proof

/-- An 8-bit value: a register, a port value, a payload, a request operand (R14). -/
abbrev Byte := BitVec 8

/-- Half of a byte, as one beat presents it to the controller (R42). -/
abbrev Nibble := BitVec 4

end Sys2Proof
end

