-- ==== Sys2Proof/Config.lean ====
section
/-! DEFINITION. The parameters the spec leaves open (00_scope R12, R13), and the free values of the transport:
what it answers to each transport event (R16, R28, R230). -/

namespace Sys2Proof

/-- PORT_READ_MODEL of R13: what a read of the LCD port returns (R28). -/
inductive PortReadModel where
  /-- `LATCH`: each known latch cell, and a draw for each unknown one. -/
  | latch
  /-- `DRAW`: a draw of all 8 bits. -/
  | draw
deriving DecidableEq, Repr

/-- The parameters of R12 (minimum delays in nanoseconds, 32 bits by R84) and R13. -/
structure Config where
  tPulse : BitVec 32
  tSettle : BitVec 32
  tClear : BitVec 32
  tSetup0 : BitVec 32
  tSetup1 : BitVec 32
  tSetup2 : BitVec 32
  lcdPortReg : Byte
  switchPortReg : Byte
  /-- The expander's address; every event of a session goes there and R84 does not repeat it in the record. The spec gives it no
  width; 8 bits is a DESIGN CHOICE, safe: notes/assumptions/23.md. -/
  deviceAddr : Byte
  portReadModel : PortReadModel
  setCursorWrap : Bool
deriving DecidableEq, Repr

/-- The defaults of R12 and the suggested values of R13.
DESIGN CHOICE, unsafe for runs from reset only: notes/assumptions/6.md. -/
def Config.suggested : Config where
  tPulse := 1000
  tSettle := 40000
  tClear := 2600000
  tSetup0 := 15000000
  tSetup1 := 5000000
  tSetup2 := 1000000
  lcdPortReg := 0x13
  switchPortReg := 0x12
  deviceAddr := 0
  portReadModel := .latch
  setCursorWrap := false

/-- The opaque value TOpen yields (R29): a token whose content no rule reads. -/
structure Handle where
  token : Nat
deriving DecidableEq, Repr, Inhabited

/-- One answer of the transport to one transport event: every draw such an event can need (R16, R28, R29, R230).
An event uses the fields its kind has and leaves the others unread. -/
structure Reply where
  /-- Whether the event fails (R16). -/
  fails : Bool
  /-- The draw a read takes its bits from (R28, R230). -/
  byte : Byte
  /-- The handle a successful TOpen yields (R29). -/
  handle : Handle
deriving DecidableEq, Repr, Inhabited

/-- The answer to the n-th transport event where State lists none: a free value, about which nothing can be
proved (R16: "a free input of the step (a draw) under no law"). Safe: notes/assumptions/5.md. -/
opaque Config.freeReply : Nat → Reply

end Sys2Proof
end

