-- ==== Sys2Proof/Syntax.lean ====
section
/-! DEFINITION. The instructions of the block: one constructor for each row of spec/opcode_table.json, and the three
kinds of frames those rows are read from. -/

namespace Sys2Proof

/-- The 37 requests of 30_encoding R86, the 9 controller words of R71 to R80 and the 2 init nibbles of R81. -/
inductive Instr where
  -- requests (R86), in the order of their codes
  | openSession (busId selectId : Byte)
  | closeSession
  | init
  | write (msg : List Byte)
  | setCursor (col row : BitVec 32)
  | setCursorAddress (addr : Byte)
  | getCursorAddress
  | clear
  | home
  | displayOn
  | displayOff
  | cursorOn
  | cursorOff
  | blinkOn
  | blinkOff
  | backlightOn
  | backlightOff
  | leftToRight
  | rightToLeft
  | autoscrollOn
  | autoscrollOff
  | setFlag (group mask enabled : Byte)
  | storeCustomBitmap (slot : Byte) (rows : List Byte)
  | writeCustomBitmap (slot : Byte)
  | readSwitches
  | readSwitch (n : Byte)
  | sendCommand (c : Byte)
  | sendData (b : Byte)
  | sendByte (b : Byte)
  | setRs (v : Byte)
  | setRw (v : Byte)
  | setEnable (v : Byte)
  | setBacklight (v : Byte)
  | moveLeft
  | moveRight
  | leftJustify
  | rightJustify
  -- controller words: RS and payload P (R71)
  | clearDisplay
  | returnHome (x : BitVec 1)
  | entryModeSet (id s : BitVec 1)
  | displayControl (d c b : BitVec 1)
  | cursorShift (sc rl : BitVec 1) (x : BitVec 2)
  | functionSet (dl n f : BitVec 1) (x : BitVec 2)
  | setCgramAddr (slot row : BitVec 3)
  | setDdramAddr (addr : BitVec 7)
  | data (byte : Byte)
  -- init nibbles: full writes of the LCD port (R81)
  | initNibble8Bit
  | initNibble4Bit
deriving DecidableEq, Repr

/-- One encoded instruction. The opcode table has three formats, whose bit patterns overlap, so a frame says which it is
(notes/assumptions/2.md, 3.md). -/
inductive Frame where
  /-- Format REQ: the request code, then the operand fields in the order of R86, as bytes. -/
  | request (bytes : List Byte)
  /-- Format LCDCMD: the 9-bit word of R71, RS in bit 8, P in bits 7:0. -/
  | controllerWord (w : BitVec 9)
  /-- Format PORTWRITE: the value of a full LCD port write (R81). -/
  | portWrite (v : Byte)
deriving DecidableEq, Repr

end Sys2Proof
end

