-- ==== Sys2Proof/Machine/Operands.lean ====
section
/-! DEFINITION. Operand forms: booleans, operand domains, geometry, and the payloads of controller words. -/

namespace Sys2Proof.Machine

/-! ### Request operands -/

/-- A boolean operand is 1 when its value is nonzero (30_encoding R87). -/
def boolOperand (v : Byte) : Bool := v != 0

/-- The two flag groups (44_control): DC is group 0, EM is group 1. -/
inductive Group where
  | dc
  | em
deriving DecidableEq, Repr

/-- The group an operand byte names, none outside 0 and 1 (R191). -/
def groupOperand (g : Byte) : Option Group :=
  if g = 0 then some .dc else if g = 1 then some .em else none

/-- The mask bits a group admits: 0x07 for DC, 0x03 for EM (R191). -/
def Group.maskBits : Group → Byte
  | .dc => 0x07
  | .em => 0x03

/-- SET_FLAG's domain (R89, R191): a known group, and no mask bit outside it. -/
def setFlagDomain (group mask : Byte) : Bool :=
  match groupOperand group with
  | some g => mask &&& ~~~g.maskBits == 0
  | none => false

/-- WRITE's domain (R89, R183): no byte of the message is 0x00. -/
def writeDomain (msg : List Byte) : Bool := msg.all (· != 0)

/-- STORE_CUSTOM_BITMAP's domain (R89, R220): exactly 8 rows. -/
def bitmapDomain (rows : List Byte) : Bool := rows.length == 8

/-- READ_SWITCH's domain (R89, R231): n in 0 to 7. -/
def switchDomain (n : Byte) : Bool := n.toNat < 8

/-! ### Geometry (42_cursor R150 to R153, 00_scope R8, R9) -/

/-- RAM_WIDTH (R8). -/
def ramWidth : Nat := 80

/-- The DDRAM offset of a row: ROW_OFFSET of R150. -/
def rowOffset (row : Nat) : Nat := if row = 0 then 0x00 else 0x40

/-- colrow2address of R150, for a column in 0 to 39 and a row in 0 to 1. -/
def colrow2address (col row : Nat) : Byte := BitVec.ofNat 8 (col + rowOffset row)

/-- address2col of R151. -/
def address2col (a : Byte) : Nat := a.toNat % 0x40

/-- address2row of R152: the comparison is strict, so 0x40 is in row 0 (90_conflicts C2). -/
def address2row (a : Byte) : Nat := if 0x40 < a.toNat then 1 else 0

/-- A signed 32-bit operand clamped into 0 to m (R153). -/
def clampTo (m : Nat) (v : BitVec 32) : Nat := (max 0 (min v.toInt m)).toNat

/-- clamp_col of R153. -/
def clampCol (c : BitVec 32) : Nat := clampTo 39 c

/-- clamp_row of R153. -/
def clampRow (r : BitVec 32) : Nat := clampTo 1 r

/-- An address reduced modulo RAM_WIDTH (R157). -/
def modRamWidth (a : Byte) : Byte := BitVec.ofNat 8 (a.toNat % ramWidth)

/-- The address SET_CURSOR stores (R155), reduced or not by SETCURSOR_WRAP (R156). -/
def cursorTarget (cfg : Config) (col row : BitVec 32) : Byte :=
  let a := colrow2address (clampCol col) (clampRow row)
  if cfg.setCursorWrap then modRamWidth a else a

/-- The newline byte (R182). -/
def newline : Byte := 0x0A

/-! ### Port bits (00_scope R10) -/

/-- PIN_E, the enable line. -/
def pinE : BitVec 3 := 4
/-- PIN_RW, the read/write line. -/
def pinRw : BitVec 3 := 5
/-- PIN_RS, the register-select line. -/
def pinRs : BitVec 3 := 6
/-- PIN_BL, the backlight line. -/
def pinBl : BitVec 3 := 7

/-- What a port write of send_byte carries (R83, R131): the upper nibble of the snapshot and a data nibble. -/
def nibbleWrite (snapshot : Byte) (n : Nibble) : Byte := (snapshot &&& 0xF0) ||| n.zeroExtend 8

/-- The nibble sent first, P[7:4] (R42). -/
def highNibble (p : Byte) : Nibble := p.extractLsb' 4 4

/-- The nibble sent second, P[3:0] (R42). -/
def lowNibble (p : Byte) : Nibble := p.extractLsb' 0 4

/-! ### Payloads assembled from registers and operands (30_encoding R72 to R79, R83) -/

/-- CLEARDISPLAY (R72). -/
def clearDisplayPayload : Byte := 0x01
/-- RETURNHOME as the block sends it (R73). -/
def returnHomePayload : Byte := 0x02
/-- ENTRYMODESET with the group's register (R74). -/
def entryModePayload (flags : Byte) : Byte := 0x04 ||| flags
/-- DISPLAYCONTROL with the group's register (R75). -/
def displayControlPayload (flags : Byte) : Byte := 0x08 ||| flags
/-- FUNCTIONSET with the register (R77). -/
def functionSetPayload (flags : Byte) : Byte := 0x20 ||| flags
/-- SETCGRAMADDR for a slot, masked to 3 bits (R78, R83, R221). -/
def cgramPayload (slot : Byte) : Byte := 0x40 ||| ((slot &&& 0x07) <<< 3)
/-- SETDDRAMADDR for an address (R79). -/
def ddramPayload (a : Byte) : Byte := 0x80 ||| a

/-- The full port writes of INIT's nibbles (R81). -/
def force8BitNibble : Byte := 0x03
/-- See `force8BitNibble`. -/
def switch4BitNibble : Byte := 0x02

/-! ### Payloads laid out field by field (R71), most significant bit first -/

def returnHomeWord (x : BitVec 1) : Byte := (0b0000001#7 : BitVec 7) ++ x
def entryModeWord (id s : BitVec 1) : Byte := (0b000001#6 : BitVec 6) ++ id ++ s
def displayControlWord (d c b : BitVec 1) : Byte := (0b00001#5 : BitVec 5) ++ d ++ c ++ b
def cursorShiftWord (sc rl : BitVec 1) (x : BitVec 2) : Byte := (0b0001#4 : BitVec 4) ++ sc ++ rl ++ x
def functionSetWord (dl n f : BitVec 1) (x : BitVec 2) : Byte := (0b001#3 : BitVec 3) ++ dl ++ n ++ f ++ x
def cgramWord (slot row : BitVec 3) : Byte := (0b01#2 : BitVec 2) ++ slot ++ row
def ddramWord (addr : BitVec 7) : Byte := (0b1#1 : BitVec 1) ++ addr

end Sys2Proof.Machine
end

