-- ==== Sys2Proof/WellFormed.lean ====
section
/-! DEFINITION. Well-formed instructions: those whose operands lie in the domain their rule admits (30_encoding R89). Widths
are exact by type (R86). An ill-formed request is no decoding error: it runs, and ends with ILLEGAL_REQUEST. -/

namespace Sys2Proof

/-- Every operand lies in its domain (R89: "Every other operand value is in domain"). -/
def Instr.wellFormed : Instr → Bool
  | .write msg => Machine.writeDomain msg
  | .setFlag group mask _ => Machine.setFlagDomain group mask
  | .storeCustomBitmap _ rows => Machine.bitmapDomain rows
  | .readSwitch n => Machine.switchDomain n
  | .openSession _ _ | .closeSession | .init | .setCursor _ _ | .setCursorAddress _ | .getCursorAddress | .clear | .home
  | .displayOn | .displayOff | .cursorOn | .cursorOff | .blinkOn | .blinkOff | .backlightOn | .backlightOff
  | .leftToRight | .rightToLeft | .autoscrollOn | .autoscrollOff | .writeCustomBitmap _ | .readSwitches
  | .sendCommand _ | .sendData _ | .sendByte _ | .setRs _ | .setRw _ | .setEnable _ | .setBacklight _
  | .moveLeft | .moveRight | .leftJustify | .rightJustify
  | .clearDisplay | .returnHome _ | .entryModeSet _ _ | .displayControl _ _ _ | .cursorShift _ _ _
  | .functionSet _ _ _ _ | .setCgramAddr _ _ | .setDdramAddr _ | .data _ | .initNibble8Bit | .initNibble4Bit => true

end Sys2Proof
end

