-- ==== Sys2Proof/Decode.lean ====
section
/-! DEFINITION. The decoder of frames, total and rejecting by name, and the encoder written from the same tables (30_encoding
R71 to R81, R86, R88). -/

namespace Sys2Proof

/-- Why a frame is no instruction. -/
inductive DecodeError where
  /-- A reserved request code: 0x00 or 0x26 to 0xFF (R88). The block answers it with ILLEGAL_REQUEST. -/
  | reservedCode (op : Byte)
  /-- A known code with too few or too many operand bytes; the port cannot carry it (R86: "An operand's width is exact"). -/
  | malformedRequest (op : Byte)
  /-- A request frame without a request code. -/
  | emptyRequest
  /-- The controller word with RS = 0 and P = 0, which is no command (R71). -/
  | noCommand
  /-- A port write that is neither init nibble (R81). -/
  | notAnInitNibble (v : Byte)
deriving DecidableEq, Repr

/-! ### Operand fields of a request -/

/-- A 32-bit operand from its bytes, lowest first. DESIGN CHOICE, safe: notes/assumptions/2.md. -/
def word32 (b0 b1 b2 b3 : Byte) : BitVec 32 := b3 ++ b2 ++ b1 ++ b0

/-- The bytes of a 32-bit operand, lowest first. -/
def bytes32 (w : BitVec 32) : List Byte :=
  [w.extractLsb' 0 8, w.extractLsb' 8 8, w.extractLsb' 16 8, w.extractLsb' 24 8]

/-- A request without operands. -/
def noOperand (op : Byte) (i : Instr) : List Byte → Except DecodeError Instr
  | [] => .ok i
  | _ => .error (.malformedRequest op)

/-- A request with one 8-bit operand. -/
def oneByte (op : Byte) (f : Byte → Instr) : List Byte → Except DecodeError Instr
  | [a] => .ok (f a)
  | _ => .error (.malformedRequest op)

/-- A request with two 8-bit operands. -/
def twoBytes (op : Byte) (f : Byte → Byte → Instr) : List Byte → Except DecodeError Instr
  | [a, b] => .ok (f a b)
  | _ => .error (.malformedRequest op)

/-- A request with three 8-bit operands. -/
def threeBytes (op : Byte) (f : Byte → Byte → Byte → Instr) : List Byte → Except DecodeError Instr
  | [a, b, c] => .ok (f a b c)
  | _ => .error (.malformedRequest op)

/-- A request with two 32-bit operands. -/
def twoWords (op : Byte) (f : BitVec 32 → BitVec 32 → Instr) : List Byte → Except DecodeError Instr
  | [a0, a1, a2, a3, b0, b1, b2, b3] => .ok (f (word32 a0 a1 a2 a3) (word32 b0 b1 b2 b3))
  | _ => .error (.malformedRequest op)

/-- A request with one 8-bit operand and a byte list. -/
def byteThenList (op : Byte) (f : Byte → List Byte → Instr) : List Byte → Except DecodeError Instr
  | a :: rest => .ok (f a rest)
  | [] => .error (.malformedRequest op)

/-! ### The decoder -/

/-- The request table of R86; every other code is reserved (R88). -/
def decodeRequest (op : Byte) (args : List Byte) : Except DecodeError Instr :=
  match op.toNat with
  | 0x01 => twoBytes op .openSession args
  | 0x02 => noOperand op .closeSession args
  | 0x03 => noOperand op .init args
  | 0x04 => .ok (.write args)
  | 0x05 => twoWords op .setCursor args
  | 0x06 => oneByte op .setCursorAddress args
  | 0x07 => noOperand op .getCursorAddress args
  | 0x08 => noOperand op .clear args
  | 0x09 => noOperand op .home args
  | 0x0A => noOperand op .displayOn args
  | 0x0B => noOperand op .displayOff args
  | 0x0C => noOperand op .cursorOn args
  | 0x0D => noOperand op .cursorOff args
  | 0x0E => noOperand op .blinkOn args
  | 0x0F => noOperand op .blinkOff args
  | 0x10 => noOperand op .backlightOn args
  | 0x11 => noOperand op .backlightOff args
  | 0x12 => noOperand op .leftToRight args
  | 0x13 => noOperand op .rightToLeft args
  | 0x14 => noOperand op .autoscrollOn args
  | 0x15 => noOperand op .autoscrollOff args
  | 0x16 => threeBytes op .setFlag args
  | 0x17 => byteThenList op .storeCustomBitmap args
  | 0x18 => oneByte op .writeCustomBitmap args
  | 0x19 => noOperand op .readSwitches args
  | 0x1A => oneByte op .readSwitch args
  | 0x1B => oneByte op .sendCommand args
  | 0x1C => oneByte op .sendData args
  | 0x1D => oneByte op .sendByte args
  | 0x1E => oneByte op .setRs args
  | 0x1F => oneByte op .setRw args
  | 0x20 => oneByte op .setEnable args
  | 0x21 => oneByte op .setBacklight args
  | 0x22 => noOperand op .moveLeft args
  | 0x23 => noOperand op .moveRight args
  | 0x24 => noOperand op .leftJustify args
  | 0x25 => noOperand op .rightJustify args
  | _ => .error (.reservedCode op)

/-- The command table of R71: the most significant 1 of the payload selects the command; RS = 1 is data (R80). -/
def decodeWord (w : BitVec 9) : Except DecodeError Instr :=
  if w.getLsbD 8 then .ok (.data (w.extractLsb' 0 8))
  else if w.getLsbD 7 then .ok (.setDdramAddr (w.extractLsb' 0 7))
  else if w.getLsbD 6 then .ok (.setCgramAddr (w.extractLsb' 3 3) (w.extractLsb' 0 3))
  else if w.getLsbD 5 then
    .ok (.functionSet (w.extractLsb' 4 1) (w.extractLsb' 3 1) (w.extractLsb' 2 1) (w.extractLsb' 0 2))
  else if w.getLsbD 4 then .ok (.cursorShift (w.extractLsb' 3 1) (w.extractLsb' 2 1) (w.extractLsb' 0 2))
  else if w.getLsbD 3 then .ok (.displayControl (w.extractLsb' 2 1) (w.extractLsb' 1 1) (w.extractLsb' 0 1))
  else if w.getLsbD 2 then .ok (.entryModeSet (w.extractLsb' 1 1) (w.extractLsb' 0 1))
  else if w.getLsbD 1 then .ok (.returnHome (w.extractLsb' 0 1))
  else if w.getLsbD 0 then .ok .clearDisplay
  else .error .noCommand

/-- The two init nibbles of R81. -/
def decodePortWrite (v : Byte) : Except DecodeError Instr :=
  if v = Machine.force8BitNibble then .ok .initNibble8Bit
  else if v = Machine.switch4BitNibble then .ok .initNibble4Bit
  else .error (.notAnInitNibble v)

/-- The instruction a frame holds. -/
def decode : Frame → Except DecodeError Instr
  | .request (op :: args) => decodeRequest op args
  | .request [] => .error .emptyRequest
  | .controllerWord w => decodeWord w
  | .portWrite v => decodePortWrite v

/-! ### The encoder -/

/-- A command word: RS = 0 and a payload (R71). -/
def commandFrame (p : Byte) : Frame := .controllerWord (0#1 ++ p)

/-- The frame of an instruction (R71 to R81, R86). -/
def encode : Instr → Frame
  | .openSession b s => .request [0x01, b, s]
  | .closeSession => .request [0x02]
  | .init => .request [0x03]
  | .write msg => .request (0x04 :: msg)
  | .setCursor col row => .request (0x05 :: (bytes32 col ++ bytes32 row))
  | .setCursorAddress a => .request [0x06, a]
  | .getCursorAddress => .request [0x07]
  | .clear => .request [0x08]
  | .home => .request [0x09]
  | .displayOn => .request [0x0A]
  | .displayOff => .request [0x0B]
  | .cursorOn => .request [0x0C]
  | .cursorOff => .request [0x0D]
  | .blinkOn => .request [0x0E]
  | .blinkOff => .request [0x0F]
  | .backlightOn => .request [0x10]
  | .backlightOff => .request [0x11]
  | .leftToRight => .request [0x12]
  | .rightToLeft => .request [0x13]
  | .autoscrollOn => .request [0x14]
  | .autoscrollOff => .request [0x15]
  | .setFlag g m e => .request [0x16, g, m, e]
  | .storeCustomBitmap slot rows => .request (0x17 :: slot :: rows)
  | .writeCustomBitmap slot => .request [0x18, slot]
  | .readSwitches => .request [0x19]
  | .readSwitch n => .request [0x1A, n]
  | .sendCommand c => .request [0x1B, c]
  | .sendData b => .request [0x1C, b]
  | .sendByte b => .request [0x1D, b]
  | .setRs v => .request [0x1E, v]
  | .setRw v => .request [0x1F, v]
  | .setEnable v => .request [0x20, v]
  | .setBacklight v => .request [0x21, v]
  | .moveLeft => .request [0x22]
  | .moveRight => .request [0x23]
  | .leftJustify => .request [0x24]
  | .rightJustify => .request [0x25]
  | .clearDisplay => commandFrame Machine.clearDisplayPayload
  | .returnHome x => commandFrame (Machine.returnHomeWord x)
  | .entryModeSet id s => commandFrame (Machine.entryModeWord id s)
  | .displayControl d c b => commandFrame (Machine.displayControlWord d c b)
  | .cursorShift sc rl x => commandFrame (Machine.cursorShiftWord sc rl x)
  | .functionSet dl n f x => commandFrame (Machine.functionSetWord dl n f x)
  | .setCgramAddr slot row => commandFrame (Machine.cgramWord slot row)
  | .setDdramAddr addr => commandFrame (Machine.ddramWord addr)
  | .data b => .controllerWord (1#1 ++ b)
  | .initNibble8Bit => .portWrite Machine.force8BitNibble
  | .initNibble4Bit => .portWrite Machine.switch4BitNibble

/-! ### The opcode table's words -/

/-- How many operand bytes a request code has at least: the fixed ones, 0 for a message, 8 rows for a bitmap (R86). -/
def operandBytes (op : Byte) : Nat :=
  match op.toNat with
  | 0x01 => 2
  | 0x05 => 8
  | 0x06 => 1
  | 0x16 => 3
  | 0x17 => 9
  | 0x18 | 0x1A | 0x1B | 0x1C | 0x1D | 0x1E | 0x1F | 0x20 | 0x21 => 1
  | _ => 0

/-- The n lowest bytes of a number, lowest first. -/
def bytesOf : Nat → Nat → List Byte
  | 0, _ => []
  | n + 1, w => BitVec.ofNat 8 w :: bytesOf n (w / 256)

/-- The frame of a table word. The table gives its REQ and PORTWRITE rows 8 bits and its LCDCMD rows 9 (2 whole bytes); an 8-bit
word is read as a request (notes/assumptions/12.md). Operand bytes above nbits are 0. -/
def frameOfTableWord (nbits w : Nat) : Frame :=
  if 8 < nbits ∧ nbits ≤ 16 then .controllerWord (BitVec.ofNat 9 w)
  else
    let op : Byte := BitVec.ofNat 8 w
    let args := bytesOf (nbits / 8 - 1) (w / 256)
    .request (op :: (args ++ List.replicate (operandBytes op - args.length) 0))

/-- The instruction the decoder reads from a table word, none where it refuses. -/
def decodeTableWord (nbits w : Nat) : Option Instr := (decode (frameOfTableWord nbits w)).toOption

end Sys2Proof
end

