-- ==== Sys2Proof/Machine/State.lean ====
section
/-! DEFINITION. The state of the block (10_state R20), what its interface has shown (30_encoding R84, R85), and the inputs
that the host and the transport will give. -/

namespace Sys2Proof.Machine

/-! ### What the outside observes -/

/-- How a transport event without a value ended (R84). -/
inductive Ack where
  | ok
  | failed
deriving DecidableEq, Repr

/-- The events of R84, each with its fields and its outcome. -/
inductive Event where
  /-- kind 0, OPEN: the handle, none on failure. -/
  | tOpen (busId selectId : Byte) (outcome : Option Handle)
  /-- kind 1, CLOSE. -/
  | tClose (outcome : Ack)
  /-- kind 2, RD: the value read, none on failure. -/
  | rd (reg : Byte) (outcome : Option Byte)
  /-- kind 3, WR. -/
  | wr (reg value : Byte) (outcome : Ack)
  /-- kind 4, WB. -/
  | wb (reg : Byte) (bit : BitVec 3) (value : Bool) (outcome : Ack)
  /-- kind 5, DELAY: at least this many nanoseconds; it never fails. -/
  | delay (ns : BitVec 32)
deriving DecidableEq, Repr

/-- The status codes of 60_exceptions R250. -/
inductive Status where
  | ok
  | transportOpenFailure
  | transportIoFailure
  | notImplemented
  | notOpen
  | illegalRequest
deriving DecidableEq, Repr

/-- The response that ends a request (R85). -/
structure Response where
  status : Status
  result : Byte
deriving DecidableEq, Repr

/-- One entry of the record of the interface: an event of a request, or the response that ended one. -/
inductive Output where
  | event (e : Event)
  | response (r : Response)
deriving DecidableEq, Repr

/-! ### The architectural state -/

/-- The port latch (R27): cell i is port bit i, `none` where it is unknown. -/
abbrev Latch := Vector (Option Bool) 8

/-- Every cell unknown (R27, R36, R111). -/
def Latch.unknown : Latch := Vector.replicate 8 none

/-- The four driver registers (R20, R22 to R26). -/
structure DriverState where
  cursorAddress : Byte
  entryModeFlags : Byte
  displayControlFlags : Byte
  functionSetFlags : Byte
deriving DecidableEq, Repr

/-- The driver registers as OPEN creates them (R35). -/
def DriverState.zeroed : DriverState := ⟨0x00, 0x00, 0x00, 0x00⟩

/-- The mode register (R21). The driver registers and the handle exist only in mode OPEN, so they stand under it
(notes/assumptions/7.md). -/
inductive Mode where
  | closed
  | opened (driver : DriverState) (handle : Handle)
deriving DecidableEq, Repr

/-- The transport side of the block: the port latch, the record of the interface, and the transport's answers to come. -/
structure Io where
  /-- The port latch (R27). -/
  latch : Latch
  /-- Every event and response since reset, oldest first (R49, R84, R85): notes/assumptions/8.md. -/
  log : List Output
  /-- The transport's answers to the next transport events, in order; beyond the list they are
  `Config.freeReply`. The model's own input: notes/assumptions/5.md. -/
  transport : List Reply
  /-- How many transport events there have been since reset: the argument of the free answers. The model's own. -/
  drawn : Nat
deriving DecidableEq, Repr

/-- The state of the machine. -/
structure State where
  /-- The parameters of R12 and R13, which no step changes (notes/assumptions/6.md). -/
  cfg : Config
  /-- The mode register, and under OPEN the driver registers and the handle (R20). -/
  mode : Mode
  /-- The port latch and the two interfaces. -/
  io : Io
  /-- The requests the host will present, in order (R253; the model's own input, notes/assumptions/1.md). -/
  requests : List Frame
deriving DecidableEq, Repr

/-- The state at reset (R36, R280): mode CLOSED, no driver registers and no handle, every latch cell unknown, idle. -/
def State.reset : State where
  cfg := Config.suggested
  mode := .closed
  io := { latch := Latch.unknown, log := [], transport := [], drawn := 0 }
  requests := []

/-! ### How a step can stop -/

/-- The machine's faults. No request of the spec raises one: every request ends in a response (R85). -/
inductive Fault where
  /-- Raised by `step` on a request frame that is no request of R86: no code, or operand bytes too few or too many for a known
  code. The request port cannot carry one (R86: "An operand's width is exact"). Safe: notes/assumptions/10.md. -/
  | malformedRequest
deriving DecidableEq, Repr

/-- The machine's refusals. -/
inductive Refusal where
  /-- Raised by an arm of `exec` for an instruction without a meaning: none is left. Safe. -/
  | notModelled (mnemonic : String)
  /-- Raised by `step` on a controller word or a port write that is no row of the opcode table: the word 0, which is
  no command (R71), and port writes other than the two init nibbles (R81). Safe: notes/assumptions/11.md. -/
  | noSuchWord
deriving DecidableEq, Repr

end Sys2Proof.Machine
end

