-- ==== Sys2Proof/Machine/Flags.lean ====
section
/-! DEFINITION. The flag registers: constants, read-modify-write, and INIT's values (30_encoding R74, R75, R77, 44_control R190).
The block has no condition codes (10_state R34). -/

namespace Sys2Proof.Machine

/-! ### Flag constants -/

/-- ENTRYLEFT, left to right (R74). -/
def entryLeft : Byte := 0x02
/-- ENTRYSHIFTINCREMENT, autoscroll on (R74). -/
def entryShiftIncrement : Byte := 0x01
/-- DISPLAYON (R75). -/
def displayOnFlag : Byte := 0x04
/-- CURSORON (R75). -/
def cursorOnFlag : Byte := 0x02
/-- BLINKON (R75). -/
def blinkOnFlag : Byte := 0x01
/-- 8BITMODE (R77); clear is 4BITMODE. -/
def eightBitMode : Byte := 0x10
/-- 2LINE (R77); clear is 1LINE. -/
def twoLine : Byte := 0x08
/-- 5X10DOTS (R77); clear is 5X8DOTS. -/
def fiveByTenDots : Byte := 0x04

/-! ### INIT's values (40_init R112) -/

/-- Step 3: 4BITMODE, 2LINE, 5X8DOTS. -/
def initFunctionSet : Byte := 0x08
/-- Step 4: display, cursor and blink off. -/
def initDisplayOff : Byte := 0x00
/-- Step 6: left to right, shift off (90_conflicts C6). -/
def initEntryMode : Byte := 0x02
/-- Step 7: display, cursor and blink on. -/
def initDisplayOn : Byte := 0x07

/-! ### Read-modify-write -/

/-- The mask's bits set or cleared, the others kept (R30, R190). -/
def updateMask (enabled : Bool) (mask old : Byte) : Byte :=
  if enabled then old ||| mask else old &&& ~~~mask

/-- The flag register of a group (R190). -/
def DriverState.flags (d : DriverState) : Group → Byte
  | .dc => d.displayControlFlags
  | .em => d.entryModeFlags

/-- The driver registers with a group's flag register replaced. -/
def DriverState.withFlags (d : DriverState) (g : Group) (v : Byte) : DriverState :=
  match g with
  | .dc => { d with displayControlFlags := v }
  | .em => { d with entryModeFlags := v }

/-- A group's full command: DISPLAYCONTROL or ENTRYMODESET with its register (R83, R190). -/
def Group.payload (g : Group) (flags : Byte) : Byte :=
  match g with
  | .dc => displayControlPayload flags
  | .em => entryModePayload flags

end Sys2Proof.Machine
end

