-- ==== Sys2Proof/Machine/Ops.lean ====
section
/-! DEFINITION. The named operations: the primitives of 00_scope R15 over the latch and the transport, the transfer sequences of
41_transfer, ending a request by a result or by raising an error, and the checks every request passes (60_exceptions R252). -/

namespace Sys2Proof.Machine

/-! ### The port latch (10_state R27, R28) -/

/-- Every cell known, from a byte written whole. -/
def Latch.ofByte (v : Byte) : Latch := Vector.ofFn fun i : Fin 8 => some (v.getLsbD i)

/-- One cell replaced; `none` makes it unknown. -/
def Latch.setCell (l : Latch) (i : BitVec 3) (c : Option Bool) : Latch := l.set i.toNat c i.isLt

/-- Each known cell, and the draw's bit for each unknown one. -/
def Latch.readWith (l : Latch) (draw : Byte) : Byte := BitVec.ofFnLE fun i : Fin 8 => (l[i]).getD (draw.getLsbD i)

/-- The value a read of the LCD port returns (R28). -/
def portValue (m : PortReadModel) (l : Latch) (draw : Byte) : Byte :=
  match m with
  | .latch => l.readWith draw
  | .draw => draw

/-! ### The transport's answers -/

/-- The answer to the k-th transport event from now: listed, or free. -/
def Io.replyAt (io : Io) (k : Nat) : Reply := (io.transport[k]?).getD (Config.freeReply (io.drawn + k))

/-- The answer to the next transport event. -/
def Io.reply (io : Io) : Reply := io.replyAt 0

/-- One answer used up. -/
def Io.takeReply (io : Io) : Io := { io with transport := io.transport.tail, drawn := io.drawn + 1 }

/-- An event appended to the record (R49). -/
def Io.record (io : Io) (e : Event) : Io := { io with log := io.log ++ [.event e] }

/-- The latch replaced. -/
def Io.setLatch (io : Io) (l : Latch) : Io := { io with latch := l }

/-! ### Primitives (R15, R16) -/

/-- How a sequence of events ended: with a value, or at its first failing event, in either case with what it left. -/
inductive Xfer (α : Type) where
  | ok (a : α) (io : Io)
  | failed (io : Io)

/-- Go on after a sequence that completed; stop where it failed (R16). -/
def Xfer.andThen {α β : Type} (x : Xfer α) (f : α → Io → Xfer β) : Xfer β :=
  match x with
  | .ok a io => f a io
  | .failed io => .failed io

/-- Delay(ns): no transport event, and it cannot fail. -/
def delay (ns : BitVec 32) (io : Io) : Xfer Unit := .ok () (io.record (.delay ns))

/-- TOpen: a handle or a failure. -/
def transportOpen (busId selectId : Byte) (io : Io) : Xfer Handle :=
  if io.reply.fails then .failed (io.takeReply.record (.tOpen busId selectId none))
  else .ok io.reply.handle (io.takeReply.record (.tOpen busId selectId (some io.reply.handle)))

/-- TClose. -/
def transportClose (io : Io) : Xfer Unit :=
  if io.reply.fails then .failed (io.takeReply.record (.tClose .failed))
  else .ok () (io.takeReply.record (.tClose .ok))

/-- MemRead(LCD_PORT_REG, 1): R28; a failed read leaves the latch as it was. -/
def readLcdPort (cfg : Config) (io : Io) : Xfer Byte :=
  let v := portValue cfg.portReadModel io.latch io.reply.byte
  if io.reply.fails then .failed (io.takeReply.record (.rd cfg.lcdPortReg none))
  else .ok v (io.takeReply.record (.rd cfg.lcdPortReg (some v)))

/-- MemRead(SWITCH_PORT_REG, 1): a free draw (46_switches R230). -/
def readSwitchPort (cfg : Config) (io : Io) : Xfer Byte :=
  if io.reply.fails then .failed (io.takeReply.record (.rd cfg.switchPortReg none))
  else .ok io.reply.byte (io.takeReply.record (.rd cfg.switchPortReg (some io.reply.byte)))

/-- MemWrite(LCD_PORT_REG, 1, v): every cell known, or on failure every cell unknown (R27). -/
def writeLcdPort (cfg : Config) (v : Byte) (io : Io) : Xfer Unit :=
  if io.reply.fails then
    .failed ((io.takeReply.setLatch Latch.unknown).record (.wr cfg.lcdPortReg v .failed))
  else .ok () ((io.takeReply.setLatch (Latch.ofByte v)).record (.wr cfg.lcdPortReg v .ok))

/-- BitWrite(LCD_PORT_REG, i, b): cell i known, or on failure unknown; the others kept (R27, R45). -/
def writeLcdBit (cfg : Config) (i : BitVec 3) (b : Bool) (io : Io) : Xfer Unit :=
  if io.reply.fails then
    .failed ((io.takeReply.setLatch (io.latch.setCell i none)).record (.wb cfg.lcdPortReg i b .failed))
  else .ok () ((io.takeReply.setLatch (io.latch.setCell i (some b))).record (.wb cfg.lcdPortReg i b .ok))

/-! ### Transfer sequences (41_transfer R130 to R133, 42_cursor R154) -/

/-- pulse_enable (R130). -/
def pulseEnable (cfg : Config) (io : Io) : Xfer Unit :=
  (writeLcdBit cfg pinE true io).andThen fun _ io =>
  (delay cfg.tPulse io).andThen fun _ io =>
  (writeLcdBit cfg pinE false io).andThen fun _ io =>
  delay cfg.tPulse io

/-- One beat: a full port write and an enable pulse (30_encoding R82). -/
def beat (cfg : Config) (v : Byte) (io : Io) : Xfer Unit :=
  (writeLcdPort cfg v io).andThen fun _ io => pulseEnable cfg io

/-- send_byte (R131): one reading of the port, then the high and the low nibble. -/
def sendByte (cfg : Config) (b : Byte) (io : Io) : Xfer Unit :=
  (readLcdPort cfg io).andThen fun s io =>
  (beat cfg (nibbleWrite s (highNibble b)) io).andThen fun _ io =>
  beat cfg (nibbleWrite s (lowNibble b)) io

/-- The register-select line, a byte, and the settle delay: what send_command and send_data share (R132, R133). -/
def transfer (cfg : Config) (rs : Bool) (p : Byte) (io : Io) : Xfer Unit :=
  (writeLcdBit cfg pinRs rs io).andThen fun _ io =>
  (sendByte cfg p io).andThen fun _ io =>
  delay cfg.tSettle io

/-- send_command (R132). -/
def sendCommand (cfg : Config) (c : Byte) (io : Io) : Xfer Unit := transfer cfg false c io

/-- send_data (R133). -/
def sendData (cfg : Config) (b : Byte) (io : Io) : Xfer Unit := transfer cfg true b io

/-- set_ddram (R154). -/
def setDdram (cfg : Config) (a : Byte) (io : Io) : Xfer Unit := sendCommand cfg (ddramPayload a) io

/-- A command followed by its settle and by T_CLEAR: clear and home (R159, R160, 70_reset R285). -/
def sendLongCommand (cfg : Config) (c : Byte) (io : Io) : Xfer Unit :=
  (sendCommand cfg c io).andThen fun _ io => delay cfg.tClear io

/-- Bytes sent as data, one after another (20_memory R43). -/
def sendDataList (cfg : Config) : List Byte → Io → Xfer Unit
  | [], io => .ok () io
  | b :: rest, io => (sendData cfg b io).andThen fun _ io => sendDataList cfg rest io

/-! ### A request's run: events and driver registers together -/

/-- How a request's pseudocode ended: with a value, or raised at a failing event. The driver registers are those written
before that point, and no write is undone (R17). -/
inductive Run (α : Type) where
  | ok (a : α) (d : DriverState) (io : Io)
  | raised (d : DriverState) (io : Io)

/-- Go on after a part that completed. -/
def Run.andThen {α β : Type} (r : Run α) (f : α → DriverState → Io → Run β) : Run β :=
  match r with
  | .ok a d io => f a d io
  | .raised d io => .raised d io

/-- The part of a request that only emits events: the driver registers stay. -/
def emit {α : Type} (x : Io → Xfer α) (d : DriverState) (io : Io) : Run α :=
  match x io with
  | .ok a io' => .ok a d io'
  | .failed io' => .raised d io'

/-- A body that only emits events and returns 0x00. -/
def emitOnly (x : Config → Io → Xfer Unit) (cfg : Config) (d : DriverState) (io : Io) : Run Byte :=
  (emit (x cfg) d io).andThen fun _ d io => .ok 0x00 d io

/-! ### Ending a request (R85, 60_exceptions R250, R254) -/

/-- The response appended to the record. -/
def State.respond (s : State) (status : Status) (result : Byte) : State :=
  { s with io := { s.io with log := s.io.log ++ [.response ⟨status, result⟩] } }

/-- `raise E`: the request ends with the error's status and result 0x00; the block has no trap, saves nothing and goes on
with the next request (R15, R254, R255). -/
def State.raise (s : State) (e : Status) : State := s.respond e 0x00

/-- `return v`: the request ends with status OK. -/
def State.complete (s : State) (v : Byte) : State := s.respond .ok v

/-- The state after a request's pseudocode has run in a session. -/
def State.afterRun (s : State) (h : Handle) : Run Byte → State
  | .ok v d io => { s with mode := .opened d h, io := io }.complete v
  | .raised d io => { s with mode := .opened d h, io := io }.raise .transportIoFailure

/-- The checks of R252 from the mode on, then the body: NOT_OPEN in mode CLOSED (R21), ILLEGAL_REQUEST outside the domain (R89). -/
def State.inSession (s : State) (domain : Bool) (body : Config → DriverState → Io → Run Byte) : State :=
  match s.mode with
  | .closed => s.raise .notOpen
  | .opened d h => if domain then s.afterRun h (body s.cfg d s.io) else s.raise .illegalRequest

/-- A request that needs a session, as a step of the machine: it always has a next state (R85). -/
def request (domain : Bool) (body : Config → DriverState → Io → Run Byte) (s : State) : Host.Outcome State Fault Refusal :=
  .next (s.inSession domain body)

/-- A placeholder: NOT_IMPLEMENTED in either mode, before any other check but the code's (47_unsupported R240, R252). -/
def placeholder (s : State) : Host.Outcome State Fault Refusal := .next (s.raise .notImplemented)

/-! ### Accepting a request (R253) -/

/-- No request presented: the block stays idle (R255). DESIGN CHOICE, safe: notes/assumptions/9.md. -/
def idle (s : State) : Host.Outcome State Fault Refusal := .next s

/-- The request taken from the port. -/
def State.accept (s : State) (rest : List Frame) : State := { s with requests := rest }

/-- A frame that holds no instruction: a reserved code ends with ILLEGAL_REQUEST in either mode (R88, R252); what the
port cannot carry stops the model. -/
def rejectFrame (e : DecodeError) (s : State) : Host.Outcome State Fault Refusal :=
  match e with
  | .reservedCode _ => .next (s.raise .illegalRequest)
  | .malformedRequest _ => .fault .malformedRequest
  | .emptyRequest => .fault .malformedRequest
  | .noCommand => .refused .noSuchWord
  | .notAnInitNibble _ => .refused .noSuchWord

/-- The numeric status codes of R250. -/
def Status.code : Status → Byte
  | .ok => 0
  | .transportOpenFailure => 1
  | .transportIoFailure => 2
  | .notImplemented => 3
  | .notOpen => 4
  | .illegalRequest => 5

/-- The kind codes of R84. -/
def Event.kind : Event → Byte
  | .tOpen _ _ _ => 0
  | .tClose _ => 1
  | .rd _ _ => 2
  | .wr _ _ _ => 3
  | .wb _ _ _ _ => 4
  | .delay _ => 5

/-- The derived column: address2col of the cursor address while a session is open (10_state R31). -/
def State.curCol (s : State) : Option Nat :=
  match s.mode with
  | .closed => none
  | .opened d _ => some (address2col d.cursorAddress)

/-- The derived row (10_state R31). -/
def State.curRow (s : State) : Option Nat :=
  match s.mode with
  | .closed => none
  | .opened d _ => some (address2row d.cursorAddress)

end Sys2Proof.Machine
end

