-- ==== Sys2Proof/Machine/Control.lean ====
section
/-! DEFINITION. SET_FLAG, its wrappers, and the backlight wrappers (44_control). Each wrapper is written from its own rule. -/

namespace Sys2Proof.Machine

/-- set_flag (R190): the register is written, then the group's full command is sent. -/
def setFlag (g : Group) (mask : Byte) (enabled : Bool) (cfg : Config) (d : DriverState) (io : Io) : Run Byte :=
  let v := updateMask enabled mask (d.flags g)
  (emit (sendCommand cfg (g.payload v)) (d.withFlags g v) io).andThen fun _ d io => .ok 0x00 d io

/-- set_flag for a group operand; the domain check has refused every byte that names no group. -/
def setFlagOperand (group mask enabled : Byte) (cfg : Config) (d : DriverState) (io : Io) : Run Byte :=
  match groupOperand group with
  | some g => setFlag g mask (boolOperand enabled) cfg d io
  | none => .raised d io

/-- SET_FLAG (R192). -/
def execSetFlag (group mask enabled : Byte) (s : State) : Host.Outcome State Fault Refusal :=
  request (setFlagDomain group mask) (setFlagOperand group mask enabled) s

/-- DISPLAY_ON (R193). -/
def execDisplayOn (s : State) : Host.Outcome State Fault Refusal := request true (setFlag .dc displayOnFlag true) s

/-- DISPLAY_OFF (R194). -/
def execDisplayOff (s : State) : Host.Outcome State Fault Refusal := request true (setFlag .dc displayOnFlag false) s

/-- CURSOR_ON (R195). -/
def execCursorOn (s : State) : Host.Outcome State Fault Refusal := request true (setFlag .dc cursorOnFlag true) s

/-- CURSOR_OFF (R196). -/
def execCursorOff (s : State) : Host.Outcome State Fault Refusal := request true (setFlag .dc cursorOnFlag false) s

/-- BLINK_ON (R197). -/
def execBlinkOn (s : State) : Host.Outcome State Fault Refusal := request true (setFlag .dc blinkOnFlag true) s

/-- BLINK_OFF (R198). -/
def execBlinkOff (s : State) : Host.Outcome State Fault Refusal := request true (setFlag .dc blinkOnFlag false) s

/-- LEFT_TO_RIGHT (R199). -/
def execLeftToRight (s : State) : Host.Outcome State Fault Refusal := request true (setFlag .em entryLeft true) s

/-- RIGHT_TO_LEFT (R200). -/
def execRightToLeft (s : State) : Host.Outcome State Fault Refusal := request true (setFlag .em entryLeft false) s

/-- AUTOSCROLL_ON (R201). -/
def execAutoscrollOn (s : State) : Host.Outcome State Fault Refusal :=
  request true (setFlag .em entryShiftIncrement true) s

/-- AUTOSCROLL_OFF (R202). -/
def execAutoscrollOff (s : State) : Host.Outcome State Fault Refusal :=
  request true (setFlag .em entryShiftIncrement false) s

/-- BACKLIGHT_ON (R203): one bit write of the port; no driver register holds the backlight. -/
def execBacklightOn (s : State) : Host.Outcome State Fault Refusal :=
  request true (emitOnly fun cfg io => writeLcdBit cfg pinBl true io) s

/-- BACKLIGHT_OFF (R204). -/
def execBacklightOff (s : State) : Host.Outcome State Fault Refusal :=
  request true (emitOnly fun cfg io => writeLcdBit cfg pinBl false io) s

end Sys2Proof.Machine
end

