-- ==== Sys2Proof/Machine/Lifecycle.lean ====
section
/-! DEFINITION. OPEN, CLOSE and INIT (40_init_lifecycle). -/

namespace Sys2Proof.Machine

/-- The session OPEN creates, or its failure, in mode CLOSED (R110). -/
def State.openFrom (s : State) (busId selectId : Byte) : State :=
  match transportOpen busId selectId s.io with
  | .ok h io => { s with mode := .opened DriverState.zeroed h, io := io }.complete 0x00
  | .failed io => { s with io := io }.raise .transportOpenFailure

/-- OPEN (R110): ILLEGAL_REQUEST in mode OPEN. -/
def execOpen (busId selectId : Byte) (s : State) : Host.Outcome State Fault Refusal :=
  .next (match s.mode with
    | .opened _ _ => s.raise .illegalRequest
    | .closed => s.openFrom busId selectId)

/-- The session discarded: mode CLOSED, no registers, no handle, every latch cell unknown (R111). -/
def State.discardSession (s : State) : State :=
  { s with mode := .closed, io := s.io.setLatch Latch.unknown }

/-- The transport's close, after the session is gone (R111). -/
def State.closeTransport (s : State) : State :=
  match transportClose s.io with
  | .ok _ io => { s with io := io }.complete 0x00
  | .failed io => { s with io := io }.raise .transportIoFailure

/-- CLOSE (R111). -/
def execClose (s : State) : Host.Outcome State Fault Refusal :=
  .next (match s.mode with
    | .closed => s.raise .notOpen
    | .opened _ _ => s.discardSession.closeTransport)

/-- do_clear (42_cursor R159): the cursor is reset after the last event. -/
def doClear (cfg : Config) (d : DriverState) (io : Io) : Run Unit :=
  (emit (sendLongCommand cfg clearDisplayPayload) d io).andThen fun _ d io =>
  .ok () { d with cursorAddress := 0x00 } io

/-- INIT's steps 1 and 2: three nibbles that force 8-bit mode, each after its delay, then the 4-bit-mode nibble (R112, R286). -/
def initNibbles (cfg : Config) (io : Io) : Xfer Unit :=
  (delay cfg.tSetup0 io).andThen fun _ io =>
  (beat cfg force8BitNibble io).andThen fun _ io =>
  (delay cfg.tSetup1 io).andThen fun _ io =>
  (beat cfg force8BitNibble io).andThen fun _ io =>
  (delay cfg.tSetup2 io).andThen fun _ io =>
  (beat cfg force8BitNibble io).andThen fun _ io =>
  beat cfg switch4BitNibble io

/-- INIT's steps 3 to 7 (R112): each register is written before its command. -/
def initCommands (cfg : Config) (d : DriverState) (io : Io) : Run Unit :=
  (emit (sendCommand cfg (functionSetPayload initFunctionSet)) { d with functionSetFlags := initFunctionSet } io).andThen
    fun _ d io =>
  (emit (sendCommand cfg (displayControlPayload initDisplayOff)) { d with displayControlFlags := initDisplayOff } io).andThen
    fun _ d io =>
  (doClear cfg d io).andThen fun _ d io =>
  (emit (sendCommand cfg (entryModePayload initEntryMode)) { d with entryModeFlags := initEntryMode } io).andThen
    fun _ d io =>
  emit (sendCommand cfg (displayControlPayload initDisplayOn)) { d with displayControlFlags := initDisplayOn } io

/-- INIT's pseudocode (R112). -/
def initBody (cfg : Config) (d : DriverState) (io : Io) : Run Byte :=
  (emit (initNibbles cfg) d io).andThen fun _ d io =>
  (initCommands cfg d io).andThen fun _ d io =>
  .ok 0x00 d io

/-- INIT (R112). -/
def execInit (s : State) : Host.Outcome State Fault Refusal := request true initBody s

end Sys2Proof.Machine
end

