-- ==== Sys2Proof/Machine/Cursor.lean ====
section
/-! DEFINITION. SET_CURSOR, SET_CURSOR_ADDRESS, GET_CURSOR_ADDRESS, CLEAR and HOME (42_cursor). -/

namespace Sys2Proof.Machine

/-- The cursor stored, then the DDRAM-set command sent (R155, R157). -/
def moveCursor (cfg : Config) (a : Byte) (d : DriverState) (io : Io) : Run Unit :=
  emit (setDdram cfg a) { d with cursorAddress := a } io

/-- do_set_cursor (R155), shared with WRITE's newline. -/
def doSetCursor (cfg : Config) (col row : BitVec 32) (d : DriverState) (io : Io) : Run Unit :=
  moveCursor cfg (cursorTarget cfg col row) d io

/-- `return cursor_address`. -/
def returnCursor (r : Run Unit) : Run Byte := r.andThen fun _ d io => .ok d.cursorAddress d io

/-- SET_CURSOR (R155). -/
def execSetCursor (col row : BitVec 32) (s : State) : Host.Outcome State Fault Refusal :=
  request true (fun cfg d io => returnCursor (doSetCursor cfg col row d io)) s

/-- SET_CURSOR_ADDRESS (R157). -/
def execSetCursorAddress (addr : Byte) (s : State) : Host.Outcome State Fault Refusal :=
  request true (fun cfg d io => returnCursor (moveCursor cfg (modRamWidth addr) d io)) s

/-- GET_CURSOR_ADDRESS (R158): no event. -/
def execGetCursorAddress (s : State) : Host.Outcome State Fault Refusal :=
  request true (fun _ d io => returnCursor (.ok () d io)) s

/-- CLEAR (R159). -/
def execClear (s : State) : Host.Outcome State Fault Refusal :=
  request true (fun cfg d io => (doClear cfg d io).andThen fun _ d io => .ok 0x00 d io) s

/-- HOME (R160): as CLEAR, with return-home. -/
def execHome (s : State) : Host.Outcome State Fault Refusal :=
  request true (fun cfg d io =>
    (emit (sendLongCommand cfg returnHomePayload) d io).andThen fun _ d io =>
    .ok 0x00 { d with cursorAddress := 0x00 } io) s

end Sys2Proof.Machine
end

