-- ==== Sys2Proof/Machine/Text.lean ====
section
/-! DEFINITION. WRITE (43_text). -/

namespace Sys2Proof.Machine

/-- A data byte sent, then the cursor advanced by 1 modulo 256 (R181, 45_glyphs R222). -/
def putByte (cfg : Config) (b : Byte) (d : DriverState) (io : Io) : Run Unit :=
  (emit (sendData cfg b) d io).andThen fun _ d io => .ok () { d with cursorAddress := d.cursorAddress + 1 } io

/-- One message byte: the newline moves to column 0 of row 1 (R182), every other byte is sent. -/
def writeByte (cfg : Config) (b : Byte) (d : DriverState) (io : Io) : Run Unit :=
  if b = newline then doSetCursor cfg 0 1 d io else putByte cfg b d io

/-- The message's bytes in order (R180). -/
def writeBytes (cfg : Config) : List Byte → DriverState → Io → Run Unit
  | [], d, io => .ok () d io
  | b :: rest, d, io => (writeByte cfg b d io).andThen fun _ d io => writeBytes cfg rest d io

/-- The re-synchronisation to the stored cursor address (R180, R222). -/
def resync (cfg : Config) (d : DriverState) (io : Io) : Run Unit := emit (setDdram cfg d.cursorAddress) d io

/-- WRITE (R180): a message holding 0x00 is refused before any event (R183). -/
def execWrite (msg : List Byte) (s : State) : Host.Outcome State Fault Refusal :=
  request (writeDomain msg) (fun cfg d io =>
    returnCursor ((resync cfg d io).andThen fun _ d io => writeBytes cfg msg d io)) s

end Sys2Proof.Machine
end

