-- ==== Sys2Proof/Machine/Glyphs.lean ====
section
/-! DEFINITION. STORE_CUSTOM_BITMAP and WRITE_CUSTOM_BITMAP (45_glyphs). -/

namespace Sys2Proof.Machine

/-- STORE_CUSTOM_BITMAP (R220): the CGRAM address of the masked slot, then the rows as data; the cursor is not moved. -/
def execStoreCustomBitmap (slot : Byte) (rows : List Byte) (s : State) : Host.Outcome State Fault Refusal :=
  request (bitmapDomain rows) (emitOnly fun cfg io =>
    (sendCommand cfg (cgramPayload slot) io).andThen fun _ io => sendDataList cfg rows io) s

/-- WRITE_CUSTOM_BITMAP (R222): the slot is sent unmasked at the stored cursor, which then advances. -/
def execWriteCustomBitmap (slot : Byte) (s : State) : Host.Outcome State Fault Refusal :=
  request true (fun cfg d io =>
    returnCursor ((resync cfg d io).andThen fun _ d io => putByte cfg slot d io)) s

end Sys2Proof.Machine
end

