-- ==== Sys2Proof/Machine/Placeholders.lean ====
section
/-! DEFINITION. The placeholders (47_unsupported R240): status NOT_IMPLEMENTED, no event, no state change. -/

namespace Sys2Proof.Machine

/-- MOVE_LEFT (R241). -/
def execMoveLeft (s : State) : Host.Outcome State Fault Refusal := placeholder s

/-- MOVE_RIGHT (R242). -/
def execMoveRight (s : State) : Host.Outcome State Fault Refusal := placeholder s

/-- LEFT_JUSTIFY (R243). -/
def execLeftJustify (s : State) : Host.Outcome State Fault Refusal := placeholder s

/-- RIGHT_JUSTIFY (R244). -/
def execRightJustify (s : State) : Host.Outcome State Fault Refusal := placeholder s

end Sys2Proof.Machine
end

