-- ==== Sys2Proof/Machine/Switches.lean ====
section
/-! DEFINITION. READ_SWITCHES and READ_SWITCH (46_switches): one read of the port each. -/

namespace Sys2Proof.Machine

/-- Bit n of the switch byte, as 0x00 or 0x01 (R231). -/
def switchBit (v n : Byte) : Byte := (v >>> n) &&& 1

/-- READ_SWITCHES (R230): the raw byte. -/
def execReadSwitches (s : State) : Host.Outcome State Fault Refusal :=
  request true (fun cfg d io => emit (readSwitchPort cfg) d io) s

/-- READ_SWITCH (R231): n above 7 is refused before any event. -/
def execReadSwitch (n : Byte) (s : State) : Host.Outcome State Fault Refusal :=
  request (switchDomain n) (fun cfg d io =>
    (emit (readSwitchPort cfg) d io).andThen fun v d io => .ok (switchBit v n) d io) s

end Sys2Proof.Machine
end

