-- ==== Sys2Proof/Machine/Transfer.lean ====
section
/-! DEFINITION. The raw requests (41_transfer R134 to R141): they write no driver register (R141). -/

namespace Sys2Proof.Machine

/-- One port bit set to a boolean operand, and nothing else: what the four set requests share. -/
def setPinBody (pin : BitVec 3) (v : Byte) : Config → DriverState → Io → Run Byte :=
  emitOnly fun cfg io => writeLcdBit cfg pin (boolOperand v) io

/-- SEND_BYTE (R134): no register select and no settle delay. -/
def execSendByte (b : Byte) (s : State) : Host.Outcome State Fault Refusal :=
  request true (emitOnly fun cfg io => sendByte cfg b io) s

/-- SEND_COMMAND (R135). -/
def execSendCommand (c : Byte) (s : State) : Host.Outcome State Fault Refusal :=
  request true (emitOnly fun cfg io => sendCommand cfg c io) s

/-- SEND_DATA (R136). -/
def execSendData (b : Byte) (s : State) : Host.Outcome State Fault Refusal :=
  request true (emitOnly fun cfg io => sendData cfg b io) s

/-- SET_RS (R137). -/
def execSetRs (v : Byte) (s : State) : Host.Outcome State Fault Refusal := request true (setPinBody pinRs v) s

/-- SET_RW (R138). -/
def execSetRw (v : Byte) (s : State) : Host.Outcome State Fault Refusal := request true (setPinBody pinRw v) s

/-- SET_ENABLE (R139). -/
def execSetEnable (v : Byte) (s : State) : Host.Outcome State Fault Refusal := request true (setPinBody pinE v) s

/-- SET_BACKLIGHT (R140). -/
def execSetBacklight (v : Byte) (s : State) : Host.Outcome State Fault Refusal := request true (setPinBody pinBl v) s

end Sys2Proof.Machine
end

