-- ==== Sys2Proof/Machine/Words.lean ====
section
/-! DEFINITION. The controller words (30_encoding R71 to R80) and the init nibbles (R81), each run on its own: the sequencer emits
it in an open session as a request would, and no driver register changes (notes/assumptions/3.md, 4.md). -/

namespace Sys2Proof.Machine

/-- A command word emitted: send_command of its payload. -/
def emitCommand (p : Byte) (s : State) : Host.Outcome State Fault Refusal :=
  request true (emitOnly fun cfg io => sendCommand cfg p io) s

/-- A command word that needs T_CLEAR after its settle (R285). -/
def emitLongCommand (p : Byte) (s : State) : Host.Outcome State Fault Refusal :=
  request true (emitOnly fun cfg io => sendLongCommand cfg p io) s

/-- CLEARDISPLAY (R72). -/
def execClearDisplay (s : State) : Host.Outcome State Fault Refusal := emitLongCommand clearDisplayPayload s

/-- RETURNHOME (R73); the ignored bit is sent as it stands in the word. -/
def execReturnHome (x : BitVec 1) (s : State) : Host.Outcome State Fault Refusal := emitLongCommand (returnHomeWord x) s

/-- ENTRYMODESET (R74). -/
def execEntryModeSet (id sh : BitVec 1) (s : State) : Host.Outcome State Fault Refusal :=
  emitCommand (entryModeWord id sh) s

/-- DISPLAYCONTROL (R75). -/
def execDisplayControl (d c b : BitVec 1) (s : State) : Host.Outcome State Fault Refusal :=
  emitCommand (displayControlWord d c b) s

/-- CURSORSHIFT (R76). No request emits it. -/
def execCursorShift (sc rl : BitVec 1) (x : BitVec 2) (s : State) : Host.Outcome State Fault Refusal :=
  emitCommand (cursorShiftWord sc rl x) s

/-- FUNCTIONSET (R77). -/
def execFunctionSet (dl n f : BitVec 1) (x : BitVec 2) (s : State) : Host.Outcome State Fault Refusal :=
  emitCommand (functionSetWord dl n f x) s

/-- SETCGRAMADDR (R78). -/
def execSetCgramAddr (slot row : BitVec 3) (s : State) : Host.Outcome State Fault Refusal :=
  emitCommand (cgramWord slot row) s

/-- SETDDRAMADDR (R79). -/
def execSetDdramAddr (addr : BitVec 7) (s : State) : Host.Outcome State Fault Refusal := emitCommand (ddramWord addr) s

/-- DATA (R80): send_data of the payload. -/
def execData (b : Byte) (s : State) : Host.Outcome State Fault Refusal :=
  request true (emitOnly fun cfg io => sendData cfg b io) s

/-- INIT_NIBBLE_8BIT (R81, R82): one beat of 0x03. -/
def execInitNibble8Bit (s : State) : Host.Outcome State Fault Refusal :=
  request true (emitOnly fun cfg io => beat cfg force8BitNibble io) s

/-- INIT_NIBBLE_4BIT (R81, R82): one beat of 0x02. -/
def execInitNibble4Bit (s : State) : Host.Outcome State Fault Refusal :=
  request true (emitOnly fun cfg io => beat cfg switch4BitNibble io) s

end Sys2Proof.Machine
end

