-- ==== Sys2Proof/Machine/Dispatch.lean ====
section
/-! DEFINITION. One arm per instruction: the call of its meaning. -/

namespace Sys2Proof.Machine

/-- The meaning of an instruction. -/
def exec (i : Instr) (s : State) : Host.Outcome State Fault Refusal :=
  match i with
  | .openSession busId selectId => Sys2Proof.Machine.execOpen busId selectId s
  | .closeSession => Sys2Proof.Machine.execClose s
  | .init => Sys2Proof.Machine.execInit s
  | .write msg => Sys2Proof.Machine.execWrite msg s
  | .setCursor col row => Sys2Proof.Machine.execSetCursor col row s
  | .setCursorAddress addr => Sys2Proof.Machine.execSetCursorAddress addr s
  | .getCursorAddress => Sys2Proof.Machine.execGetCursorAddress s
  | .clear => Sys2Proof.Machine.execClear s
  | .home => Sys2Proof.Machine.execHome s
  | .displayOn => Sys2Proof.Machine.execDisplayOn s
  | .displayOff => Sys2Proof.Machine.execDisplayOff s
  | .cursorOn => Sys2Proof.Machine.execCursorOn s
  | .cursorOff => Sys2Proof.Machine.execCursorOff s
  | .blinkOn => Sys2Proof.Machine.execBlinkOn s
  | .blinkOff => Sys2Proof.Machine.execBlinkOff s
  | .backlightOn => Sys2Proof.Machine.execBacklightOn s
  | .backlightOff => Sys2Proof.Machine.execBacklightOff s
  | .leftToRight => Sys2Proof.Machine.execLeftToRight s
  | .rightToLeft => Sys2Proof.Machine.execRightToLeft s
  | .autoscrollOn => Sys2Proof.Machine.execAutoscrollOn s
  | .autoscrollOff => Sys2Proof.Machine.execAutoscrollOff s
  | .setFlag group mask enabled => Sys2Proof.Machine.execSetFlag group mask enabled s
  | .storeCustomBitmap slot rows => Sys2Proof.Machine.execStoreCustomBitmap slot rows s
  | .writeCustomBitmap slot => Sys2Proof.Machine.execWriteCustomBitmap slot s
  | .readSwitches => Sys2Proof.Machine.execReadSwitches s
  | .readSwitch n => Sys2Proof.Machine.execReadSwitch n s
  | .sendCommand c => Sys2Proof.Machine.execSendCommand c s
  | .sendData b => Sys2Proof.Machine.execSendData b s
  | .sendByte b => Sys2Proof.Machine.execSendByte b s
  | .setRs v => Sys2Proof.Machine.execSetRs v s
  | .setRw v => Sys2Proof.Machine.execSetRw v s
  | .setEnable v => Sys2Proof.Machine.execSetEnable v s
  | .setBacklight v => Sys2Proof.Machine.execSetBacklight v s
  | .moveLeft => Sys2Proof.Machine.execMoveLeft s
  | .moveRight => Sys2Proof.Machine.execMoveRight s
  | .leftJustify => Sys2Proof.Machine.execLeftJustify s
  | .rightJustify => Sys2Proof.Machine.execRightJustify s
  | .clearDisplay => Sys2Proof.Machine.execClearDisplay s
  | .returnHome x => Sys2Proof.Machine.execReturnHome x s
  | .entryModeSet id sh => Sys2Proof.Machine.execEntryModeSet id sh s
  | .displayControl d c b => Sys2Proof.Machine.execDisplayControl d c b s
  | .cursorShift sc rl x => Sys2Proof.Machine.execCursorShift sc rl x s
  | .functionSet dl n f x => Sys2Proof.Machine.execFunctionSet dl n f x s
  | .setCgramAddr slot row => Sys2Proof.Machine.execSetCgramAddr slot row s
  | .setDdramAddr addr => Sys2Proof.Machine.execSetDdramAddr addr s
  | .data b => Sys2Proof.Machine.execData b s
  | .initNibble8Bit => Sys2Proof.Machine.execInitNibble8Bit s
  | .initNibble4Bit => Sys2Proof.Machine.execInitNibble4Bit s

end Sys2Proof.Machine
end

