-- ==== Sys2Proof/Machine/Step.lean ====
section
/-! DEFINITION. One step: the block accepts the next request the host presents and carries it out whole (60_exceptions R253). -/

namespace Sys2Proof.Machine

/-- The next frame at the request port is taken, decoded and run; without one the block is idle. -/
def step (s : State) : Host.Outcome State Fault Refusal :=
  match s.requests with
  | [] => idle s
  | f :: rest =>
    match decode f with
    | .ok i => exec i (s.accept rest)
    | .error e => rejectFrame e (s.accept rest)

/-- The state with a table word presented as the host's next request. -/
def State.withFetchWord (s : State) (nbits w : Nat) : State :=
  { s with requests := frameOfTableWord nbits w :: s.requests }

end Sys2Proof.Machine
end

