-- ==== Sys2Proof/Machine/Assembler.lean ====
section
/-! DEFINITION. The written form of requests (30_encoding R90): from the text of a request to the instruction, none where the text is no
request. What R90 leaves open is settled in notes/assumptions/22.md. -/

namespace Sys2Proof.Machine

/-! ### Tokens -/

/-- The tokens of a request's text. -/
inductive AsmToken where
  /-- A mnemonic, a group or a flag name. -/
  | name (cs : List Char)
  | numeral (v : Int)
  /-- A quoted string, escapes resolved. -/
  | text (bs : List Byte)
  /-- A comma, a bracket or a parenthesis. -/
  | mark (c : Char)
deriving DecidableEq, Repr

/-- The quotation mark. -/
def quoteMark : Char := Char.ofNat 34
/-- The backslash. -/
def backslash : Char := Char.ofNat 92

/-- A character of a name. -/
def isNameChar (c : Char) : Bool := c.isAlphanum || c == '_'

/-- The value of a digit in base 8, 10 or 16. -/
def digitValue (base : Nat) (c : Char) : Option Nat :=
  let n := c.toNat
  let v := if 48 ≤ n ∧ n ≤ 57 then n - 48
    else if 65 ≤ n ∧ n ≤ 70 then n - 55
    else if 97 ≤ n ∧ n ≤ 102 then n - 87
    else 16
  if v < base then some v else none

/-- A numeral's digits, all of one base. -/
def digitsValue (base : Nat) : List Char → Nat → Option Nat
  | [], acc => some acc
  | c :: rest, acc => (digitValue base c).bind fun v => digitsValue base rest (acc * base + v)

/-- An unsigned numeral: decimal, or hexadecimal after 0x. -/
def numeralValue : List Char → Option Nat
  | '0' :: 'x' :: d :: rest => digitsValue 16 (d :: rest) 0
  | d :: rest => digitsValue 10 (d :: rest) 0
  | [] => none

/-- At most n digits of a base, and the characters after them. -/
def takeDigits (base : Nat) : Nat → List Char → Nat → Nat × List Char
  | 0, cs, acc => (acc, cs)
  | _, [], acc => (acc, [])
  | n + 1, c :: rest, acc =>
    match digitValue base c with
    | some v => takeDigits base n rest (acc * base + v)
    | none => (acc, c :: rest)

/-- A value as a byte, none where it does not fit. -/
def asByte (v : Nat) : Option Byte := if v < 256 then some (BitVec.ofNat 8 v) else none

/-- The simple escapes of C. -/
def simpleEscape (c : Char) : Option Byte :=
  if c == 'n' then some 0x0A
  else if c == 't' then some 0x09
  else if c == 'r' then some 0x0D
  else if c == 'a' then some 0x07
  else if c == 'b' then some 0x08
  else if c == 'f' then some 0x0C
  else if c == 'v' then some 0x0B
  else if c == quoteMark || c == backslash || c == Char.ofNat 39 || c == '?' then some (BitVec.ofNat 8 c.toNat)
  else none

/-- One escape after its backslash: the byte it stands for and the characters after it. -/
def escapeByte : List Char → Option (Byte × List Char)
  | [] => none
  | 'x' :: d :: rest =>
    if (digitValue 16 d).isSome then
      let (v, rest') := takeDigits 16 (d :: rest).length (d :: rest) 0
      (asByte v).map fun b => (b, rest')
    else none
  | c :: rest =>
    if (digitValue 8 c).isSome then
      let (v, rest') := takeDigits 8 3 (c :: rest) 0
      (asByte v).map fun b => (b, rest')
    else (simpleEscape c).map fun b => (b, rest)

/-- The bytes of a quoted string after its opening mark, and the characters after its closing one. -/
def stringBytes : Nat → List Char → Option (List Byte × List Char)
  | 0, _ => none
  | _, [] => none
  | fuel + 1, c :: rest =>
    if c == quoteMark then some ([], rest)
    else if c == backslash then
      (escapeByte rest).bind fun (b, rest') => (stringBytes fuel rest').map fun (bs, r) => (b :: bs, r)
    else if c.toNat < 128 then
      (stringBytes fuel rest).map fun (bs, r) => (BitVec.ofNat 8 c.toNat :: bs, r)
    else none

/-- The word a name or a numeral is made of, without a sign. -/
def wordToken (cs : List Char) : Option AsmToken :=
  match cs with
  | [] => none
  | c :: _ =>
    if c.isDigit then
      (numeralValue cs).map fun v => .numeral v
    else some (.name cs)

/-- The tokens of a text. -/
def tokens : Nat → List Char → Option (List AsmToken)
  | 0, _ => none
  | _, [] => some []
  | fuel + 1, c :: rest =>
    if c.isWhitespace then tokens fuel rest
    else if c == ',' || c == '(' || c == ')' || c == '[' || c == ']' then (tokens fuel rest).map (.mark c :: ·)
    else if c == quoteMark then (stringBytes fuel rest).bind fun (bs, r) => (tokens fuel r).map (.text bs :: ·)
    else if c == '-' then
      match wordToken (rest.takeWhile isNameChar) with
      | some (.numeral v) => (tokens fuel (rest.dropWhile isNameChar)).map (.numeral (-v) :: ·)
      | _ => none
    else if isNameChar c then
      (wordToken ((c :: rest).takeWhile isNameChar)).bind fun t =>
        (tokens fuel ((c :: rest).dropWhile isNameChar)).map (t :: ·)
    else none

/-! ### Operands -/

/-- One written operand. -/
inductive AsmOperand where
  | name (cs : List Char)
  | numeral (v : Int)
  | bytes (bs : List Byte)
deriving DecidableEq, Repr

/-- The numerals of a bracketed list after its opening bracket, as bytes, and the tokens after it. -/
def bracketBytes : List AsmToken → Option (List Byte × List AsmToken)
  | .numeral v :: .mark c :: rest =>
    if v < 0 then none
    else (asByte v.toNat).bind fun b =>
      if c == ']' then some ([b], rest)
      else if c == ',' then (bracketBytes rest).map fun (bs, r) => (b :: bs, r)
      else none
  | _ => none

/-- One operand and the tokens after it. -/
def oneOperand : List AsmToken → Option (AsmOperand × List AsmToken)
  | .name cs :: rest => some (.name cs, rest)
  | .numeral v :: rest => some (.numeral v, rest)
  | .text bs :: rest => some (.bytes bs, rest)
  | .mark c :: rest =>
    if c == '[' then
      if rest.head? = some (.mark ']') then some (.bytes [], rest.tail)
      else (bracketBytes rest).map fun (bs, r) => (.bytes bs, r)
    else none
  | [] => none

/-- Operands separated by commas, up to the end of the tokens. -/
def operandList : Nat → List AsmToken → Option (List AsmOperand)
  | 0, _ => none
  | fuel + 1, ts =>
    (oneOperand ts).bind fun (o, rest) =>
      match rest with
      | [] => some [o]
      | .mark c :: more => if c == ',' then (operandList fuel more).map (o :: ·) else none
      | _ => none

/-- All operands of a request: none at all, or a list. -/
def allOperands (ts : List AsmToken) : Option (List AsmOperand) :=
  if ts = [] then some [] else operandList ts.length ts

/-- An 8-bit operand; booleans too, whose every nonzero value is true (R87). -/
def byteOperand : AsmOperand → Option Byte
  | .numeral v => if v < 0 then none else asByte v.toNat
  | _ => none

/-- A signed 32-bit operand. -/
def signedOperand : AsmOperand → Option (BitVec 32)
  | .numeral v => if -2147483648 ≤ v ∧ v ≤ 2147483647 then some (BitVec.ofInt 32 v) else none
  | _ => none

/-- A byte list. -/
def bytesOperand : AsmOperand → Option (List Byte)
  | .bytes bs => some bs
  | _ => none

/-- The value of a name in a list of names. -/
def lookupName (table : List (String × Byte)) (cs : List Char) : Option Byte :=
  (table.find? fun p => p.1 == String.ofList cs).map Prod.snd

/-- The group names (R90). -/
def groupNames : List (String × Byte) := [("DC", 0), ("EM", 1)]

/-- The flag names of the two groups (R74, R75). -/
def flagNames : List (String × Byte) :=
  [("ENTRYLEFT", entryLeft), ("ENTRYSHIFTINCREMENT", entryShiftIncrement), ("ENTRYRIGHT", 0), ("ENTRYSHIFTDECREMENT", 0),
   ("DISPLAYON", displayOnFlag), ("CURSORON", cursorOnFlag), ("BLINKON", blinkOnFlag), ("DISPLAYOFF", 0), ("CURSOROFF", 0),
   ("BLINKOFF", 0)]

/-- A byte written as a numeral or as one of the names. -/
def namedOperand (table : List (String × Byte)) : AsmOperand → Option Byte
  | .name cs => lookupName table cs
  | o => byteOperand o

/-! ### Requests -/

/-- How a request's operands are written. -/
inductive AsmShape where
  | plain (i : Instr)
  | byte (f : Byte → Instr)
  | twoBytes (f : Byte → Byte → Instr)
  | twoSigned (f : BitVec 32 → BitVec 32 → Instr)
  | flag (f : Byte → Byte → Byte → Instr)
  | message (f : List Byte → Instr)
  | bitmap (f : Byte → List Byte → Instr)

/-- The request of a shape with these operands. -/
def AsmShape.build : AsmShape → List AsmOperand → Option Instr
  | .plain i, [] => some i
  | .byte f, [a] => (byteOperand a).map f
  | .twoBytes f, [a, b] => (byteOperand a).bind fun x => (byteOperand b).map (f x)
  | .twoSigned f, [a, b] => (signedOperand a).bind fun x => (signedOperand b).map (f x)
  | .flag f, [g, m, e] =>
    (namedOperand groupNames g).bind fun x => (namedOperand flagNames m).bind fun y => (byteOperand e).map (f x y)
  | .message f, [m] => (bytesOperand m).map f
  | .bitmap f, [a, b] => (byteOperand a).bind fun x => (bytesOperand b).map (f x)
  | _, _ => none

/-- The mnemonics of R86, in the order of their codes. -/
def mnemonics : List (String × AsmShape) :=
  [("OPEN", .twoBytes .openSession), ("CLOSE", .plain .closeSession), ("INIT", .plain .init), ("WRITE", .message .write),
   ("SET_CURSOR", .twoSigned .setCursor), ("SET_CURSOR_ADDRESS", .byte .setCursorAddress),
   ("GET_CURSOR_ADDRESS", .plain .getCursorAddress), ("CLEAR", .plain .clear), ("HOME", .plain .home)] ++
  [("DISPLAY_ON", .plain .displayOn), ("DISPLAY_OFF", .plain .displayOff), ("CURSOR_ON", .plain .cursorOn),
   ("CURSOR_OFF", .plain .cursorOff), ("BLINK_ON", .plain .blinkOn), ("BLINK_OFF", .plain .blinkOff),
   ("BACKLIGHT_ON", .plain .backlightOn), ("BACKLIGHT_OFF", .plain .backlightOff), ("LEFT_TO_RIGHT", .plain .leftToRight),
   ("RIGHT_TO_LEFT", .plain .rightToLeft), ("AUTOSCROLL_ON", .plain .autoscrollOn),
   ("AUTOSCROLL_OFF", .plain .autoscrollOff), ("SET_FLAG", .flag .setFlag)] ++
  [("STORE_CUSTOM_BITMAP", .bitmap .storeCustomBitmap), ("WRITE_CUSTOM_BITMAP", .byte .writeCustomBitmap),
   ("READ_SWITCHES", .plain .readSwitches), ("READ_SWITCH", .byte .readSwitch), ("SEND_COMMAND", .byte .sendCommand),
   ("SEND_DATA", .byte .sendData), ("SEND_BYTE", .byte .sendByte), ("SET_RS", .byte .setRs), ("SET_RW", .byte .setRw),
   ("SET_ENABLE", .byte .setEnable), ("SET_BACKLIGHT", .byte .setBacklight), ("MOVE_LEFT", .plain .moveLeft),
   ("MOVE_RIGHT", .plain .moveRight), ("LEFT_JUSTIFY", .plain .leftJustify), ("RIGHT_JUSTIFY", .plain .rightJustify)]

/-- The shape of the mnemonic with this name. -/
def mnemonicShape (cs : List Char) : Option AsmShape :=
  (mnemonics.find? fun p => p.1 == String.ofList cs).map Prod.snd

/-- The tokens between the parentheses of a call, which close at the end. -/
def callOperands (ts : List AsmToken) : Option (List AsmOperand) :=
  if ts.getLast? = some (.mark ')') then allOperands ts.dropLast else none

/-- A request from its tokens: the mnemonic and its operands, or the function-call spelling, a lower-case name and its operands in
parentheses (R90). -/
def requestOfTokens : List AsmToken → Option Instr
  | .name cs :: .mark '(' :: rest =>
    if cs.all fun c => !c.isUpper then
      (mnemonicShape (cs.map Char.toUpper)).bind fun shape => (callOperands rest).bind shape.build
    else none
  | .name cs :: rest => (mnemonicShape cs).bind fun shape => (allOperands rest).bind shape.build
  | _ => none

/-- The request a text denotes (R90). -/
def assemble (text : String) : Option Instr :=
  let cs := text.toList
  (tokens (cs.length + 1) cs).bind requestOfTokens

end Sys2Proof.Machine
end

