-- ==== Sys2Proof/Machine/Trace.lean ====
section
/-! DEFINITION. Reading the record of the interface: the events of a request, its minimum duration (20_memory R50), and the
controller words a trace carries (30_encoding R82). Nothing here changes the state. -/

namespace Sys2Proof.Machine

/-- The event recorded a failure (R84). -/
def Event.fails : Event → Bool
  | .tOpen _ _ none => true
  | .tClose .failed => true
  | .rd _ none => true
  | .wr _ _ .failed => true
  | .wb _ _ _ .failed => true
  | .tOpen _ _ (some _) | .tClose .ok | .rd _ (some _) | .wr _ _ .ok | .wb _ _ _ .ok | .delay _ => false

/-- A transport event, that is, not a delay (R15). -/
def Event.isTransport : Event → Bool
  | .delay _ => false
  | .tOpen _ _ _ | .tClose _ | .rd _ _ | .wr _ _ _ | .wb _ _ _ _ => true

/-- The status a failing event raises (R16, R252). -/
def Event.failureStatus : Event → Status
  | .tOpen _ _ _ => .transportOpenFailure
  | .tClose _ | .rd _ _ | .wr _ _ _ | .wb _ _ _ _ | .delay _ => .transportIoFailure

/-- The events among the entries of the record. -/
def eventsOf (l : List Output) : List Event :=
  l.filterMap fun
    | .event e => some e
    | .response _ => none

/-- The events a step from s to t added. -/
def State.newEvents (s t : State) : List Event := eventsOf (t.io.log.drop s.io.log.length)

/-- The response that ended the last request, if the record ends with one. -/
def State.lastResponse (s : State) : Option Response :=
  match s.io.log.getLast? with
  | some (.response r) => some r
  | _ => none

/-- The status of the last response. -/
def State.lastStatus (s : State) : Option Status := s.lastResponse.map Response.status

/-- The sum of the delay arguments: the least time the events take (R50). -/
def minDuration : List Event → Nat
  | [] => 0
  | .delay ns :: rest => ns.toNat + minDuration rest
  | _ :: rest => minDuration rest

/-- The port latch after one event, from the latch before it: a write sets its cells, or makes them unknown where it failed; a read,
a delay and an open leave them (10_state R27, R28); a session that closes leaves none known, failing or not (40_init R111). -/
def Event.latchAfter (l : Latch) : Event → Latch
  | .wr _ v .ok => Latch.ofByte v
  | .wr _ _ .failed => Latch.unknown
  | .wb _ i b .ok => l.setCell i (some b)
  | .wb _ i _ .failed => l.setCell i none
  | .tClose _ => Latch.unknown
  | .tOpen _ _ _ | .rd _ _ | .delay _ => l

/-- The port latch after a trace. -/
def latchAfter (l : Latch) (evs : List Event) : Latch := evs.foldl Event.latchAfter l

/-- How many transport events a trace has. -/
def transportCount (evs : List Event) : Nat := evs.countP Event.isTransport

/-- The data nibbles of the port writes, in order (R42, R70). -/
def nibblesOf (evs : List Event) : List Nibble :=
  evs.filterMap fun
    | .wr _ v .ok => some (lowNibble v)
    | _ => none

/-- The controller words of a trace whose port writes come in pairs, high nibble first, with the register-select line as last
written (R18, R42, R82). -/
def wordsOf (rs : Bool) (high : Option Nibble) : List Event → List (BitVec 9)
  | [] => []
  | .wb _ bit v .ok :: rest => wordsOf (if bit = pinRs then v else rs) high rest
  | .wr _ v .ok :: rest =>
    match high with
    | none => wordsOf rs (some (lowNibble v)) rest
    | some n => (BitVec.ofBool rs ++ n ++ lowNibble v) :: wordsOf rs none rest
  | _ :: rest => wordsOf rs high rest

/-- Every write of the enable line that the transport carried out is followed at once by T_PULSE (70_reset R283). -/
def pulsesTimed (cfg : Config) : List Event → Bool
  | [] => true
  | .wb _ bit _ .ok :: rest =>
    (bit != pinE || (match rest with
      | .delay ns :: _ => ns == cfg.tPulse
      | _ => false)) && pulsesTimed cfg rest
  | _ :: rest => pulsesTimed cfg rest

end Sys2Proof.Machine
end

