-- ==== Sys2Proof/Safety.lean ====
section
/-! DEFINITION. What the statements are written in: the invariants, the condition that the transport does not fail, and the
traces and port states that the rules give for a completed transfer, written out from the rules as plain lists. -/

namespace Sys2Proof.Machine

/-! ### Invariants -/

/-- The hardwired zero bits of 10_state R24 to R26, and function_set_flags at 0x00 or 0x08 (40_init R116). -/
def DriverState.hardwired (d : DriverState) : Bool :=
  decide (d.entryModeFlags &&& 0xFC = 0 ∧ d.displayControlFlags &&& 0xF8 = 0 ∧
    (d.functionSetFlags = 0x00 ∨ d.functionSetFlags = 0x08))

/-- The flag registers of an open session are hardwired as the spec says. -/
def State.flagsHardwired (s : State) : Bool :=
  match s.mode with
  | .closed => true
  | .opened d _ => d.hardwired

/-- An entry of the record may follow the entry before it: after a failing event comes its error response and nothing else; a
transport-failure response comes only there; a result comes only with OK (R16, R85, R250). -/
def outputFollows (before : Option Output) (o : Output) : Bool :=
  match before, o with
  | some (.event e), .event _ => !e.fails
  | some (.event e), .response r =>
    if e.fails then r == ⟨e.failureStatus, 0x00⟩ else r.status == .ok
  | _, .event _ => true
  | _, .response r =>
    r.status != .transportOpenFailure && r.status != .transportIoFailure && (r.status == .ok || r.result == 0x00)

/-- The record is a sequence of whole requests: each entry may follow the one before, and the last is a response. -/
def recordWhole (before : Option Output) : List Output → Bool
  | [] =>
    match before with
    | some (.event _) => false
    | _ => true
  | o :: rest => outputFollows before o && recordWhole (some o) rest

/-- Every request in the record is whole. -/
def State.recordIsWhole (s : State) : Bool := recordWhole none s.io.log

/-! ### The transport does not fail -/

/-- None of the next n transport events fails. -/
def Io.transportOk (io : Io) (n : Nat) : Bool := (List.range n).all fun k => !(io.replyAt k).fails

/-! ### Completed transfers, from the rules -/

/-- The interface after events that leave the latch l and use n answers. -/
def Io.afterEvents (io : Io) (l : Latch) (evs : List Event) (n : Nat) : Io where
  latch := l
  log := io.log ++ evs.map Output.event
  transport := io.transport.drop n
  drawn := io.drawn + n

/-- The 4 events of an enable pulse (41_transfer R130). -/
def pulseTrace (cfg : Config) : List Event :=
  [.wb cfg.lcdPortReg 4 true .ok, .delay cfg.tPulse, .wb cfg.lcdPortReg 4 false .ok, .delay cfg.tPulse]

/-- The 5 events of a beat (30_encoding R82). -/
def beatTrace (cfg : Config) (v : Byte) : List Event := .wr cfg.lcdPortReg v .ok :: pulseTrace cfg

/-- The port value with the snapshot's upper nibble and the payload's high nibble (R131). -/
def firstWrite (snapshot p : Byte) : Byte := (snapshot &&& 0xF0) ||| (p >>> 4)

/-- The port value with the snapshot's upper nibble and the payload's low nibble (R131). -/
def secondWrite (snapshot p : Byte) : Byte := (snapshot &&& 0xF0) ||| (p &&& 0x0F)

/-- The 11 events of send_byte, given the port value read (R131). -/
def byteTrace (cfg : Config) (snapshot p : Byte) : List Event :=
  .rd cfg.lcdPortReg (some snapshot) ::
    (beatTrace cfg (firstWrite snapshot p) ++ beatTrace cfg (secondWrite snapshot p))

/-- The 13 events of send_command (rs false) and send_data (rs true), given the port value read (R132, R133). -/
def transferTrace (cfg : Config) (rs : Bool) (snapshot p : Byte) : List Event :=
  .wb cfg.lcdPortReg 6 rs .ok :: (byteTrace cfg snapshot p ++ [.delay cfg.tSettle])

/-- The latch after a beat: the value written, with the enable line low (R27, R130). -/
def latchAfterBeat (v : Byte) : Latch := (Latch.ofByte v).setCell 4 (some false)

/-- The port value send_byte reads from here (R28). -/
def Io.byteSnapshot (io : Io) (cfg : Config) : Byte := portValue cfg.portReadModel io.latch (io.replyAt 0).byte

/-- The interface after a completed send_byte: 7 transport events. -/
def Io.afterByte (io : Io) (cfg : Config) (p : Byte) : Io :=
  io.afterEvents (latchAfterBeat (secondWrite (io.byteSnapshot cfg) p)) (byteTrace cfg (io.byteSnapshot cfg) p) 7

/-- The port value a transfer reads: the register-select line is already written (R133). -/
def Io.transferSnapshot (io : Io) (cfg : Config) (rs : Bool) : Byte :=
  portValue cfg.portReadModel (io.latch.setCell 6 (some rs)) (io.replyAt 1).byte

/-- The interface after a completed send_command or send_data: 8 transport events. -/
def Io.afterTransfer (io : Io) (cfg : Config) (rs : Bool) (p : Byte) : Io :=
  io.afterEvents (latchAfterBeat (secondWrite (io.transferSnapshot cfg rs) p))
    (transferTrace cfg rs (io.transferSnapshot cfg rs) p) 8

/-- The interface after completed transfers, one after another: each a register-select value and a payload. -/
def Io.afterTransfers (io : Io) (cfg : Config) (ws : List (Bool × Byte)) : Io :=
  ws.foldl (fun io w => io.afterTransfer cfg w.1 w.2) io

/-- The interface after a completed beat: 3 transport events. -/
def Io.afterBeat (io : Io) (cfg : Config) (v : Byte) : Io := io.afterEvents (latchAfterBeat v) (beatTrace cfg v) 3

/-- The interface after a completed bit write. -/
def Io.afterBit (io : Io) (cfg : Config) (i : BitVec 3) (b : Bool) : Io :=
  io.afterEvents (io.latch.setCell i (some b)) [.wb cfg.lcdPortReg i b .ok] 1

/-- The interface after a delay. -/
def Io.afterDelay (io : Io) (ns : BitVec 32) : Io := io.afterEvents io.latch [.delay ns] 0

/-- The state after a request that ended with status OK and this result, registers and interface. -/
def State.ended (s : State) (d : DriverState) (h : Handle) (io : Io) (v : Byte) : State :=
  { s with mode := .opened d h, io := { io with log := io.log ++ [.response ⟨.ok, v⟩] } }

/-- The state after a request that ended by a check, or at once: an error response, no event, nothing else changed (R252). -/
def State.refusedWith (s : State) (e : Status) : State :=
  { s with io := { s.io with log := s.io.log ++ [.response ⟨e, 0x00⟩] } }

/-- The state after the interface has become io and a response with result 0x00 has ended the request; mode and registers are
those of s. -/
def State.answered (s : State) (io : Io) (e : Status) : State :=
  { s with io := { io with log := io.log ++ [.response ⟨e, 0x00⟩] } }

/-! ### WRITE, from its rules (43_text R180 to R182) -/

/-- The cursor after one message byte: 0x40 after a newline, else one more, modulo 256. -/
def cursorAfterByte (cur b : Byte) : Byte := if b = 0x0A then 0x40 else cur + 1

/-- The cursor after a message. -/
def cursorAfterMessage (cur : Byte) (msg : List Byte) : Byte := msg.foldl cursorAfterByte cur

/-- The transfer of one message byte: the command 0xC0 for a newline, else the byte as data. -/
def transferOfByte (b : Byte) : Bool × Byte := if b = 0x0A then (false, 0xC0) else (true, b)

/-! ### INIT, from its rules (40_init R112, R113) -/

/-- The interface after INIT's steps 1 and 2. -/
def Io.afterInitNibbles (io : Io) (cfg : Config) : Io :=
  (((((((io.afterDelay cfg.tSetup0).afterBeat cfg 0x03).afterDelay cfg.tSetup1).afterBeat cfg 0x03).afterDelay
    cfg.tSetup2).afterBeat cfg 0x03).afterBeat cfg 0x02)

/-- The interface after INIT: the nibbles, then the commands 0x28, 0x08, 0x01 with its clear delay, 0x06 and 0x0F. -/
def Io.afterInit (io : Io) (cfg : Config) : Io :=
  ((((io.afterInitNibbles cfg).afterTransfers cfg [(false, 0x28), (false, 0x08), (false, 0x01)]).afterDelay
    cfg.tClear).afterTransfers cfg [(false, 0x06), (false, 0x0F)])

/-! ### Classes of instructions -/

/-- The placeholders (47_unsupported R241 to R244). -/
def placeholders : List Instr := [.moveLeft, .moveRight, .leftJustify, .rightJustify]

/-- The instruction is OPEN. -/
def isOpen : Instr → Bool
  | .openSession _ _ => true
  | _ => false

/-- A request of R86, and not a controller word or an init nibble. -/
def isRequest : Instr → Bool
  | .clearDisplay | .returnHome _ | .entryModeSet _ _ | .displayControl _ _ _ | .cursorShift _ _ _
  | .functionSet _ _ _ _ | .setCgramAddr _ _ | .setDdramAddr _ | .data _ | .initNibble8Bit | .initNibble4Bit => false
  | _ => true

/-- READ_SWITCHES and READ_SWITCH (46_switches). -/
def isSwitchRequest : Instr → Bool
  | .readSwitches | .readSwitch _ => true
  | _ => false

/-- The requests that write no driver register in any case: the raw requests (R141), the backlight requests (R203, R204), the
switch requests (46_switches), STORE_CUSTOM_BITMAP (R220), GET_CURSOR_ADDRESS (R158) and the placeholders (R240). -/
def keepsRegisters : Instr → Bool
  | .sendCommand _ | .sendData _ | .sendByte _ | .setRs _ | .setRw _ | .setEnable _ | .setBacklight _
  | .backlightOn | .backlightOff | .readSwitches | .readSwitch _ | .storeCustomBitmap _ _ | .getCursorAddress
  | .moveLeft | .moveRight | .leftJustify | .rightJustify => true
  | _ => false

/-- The requests that move the cursor, INIT apart (10_state R20's table). -/
def movesCursor : Instr → Bool
  | .setCursor _ _ | .setCursorAddress _ | .write _ | .writeCustomBitmap _ | .clear | .home => true
  | _ => false

/-- The requests that write the backlight bit of the port: INIT's full writes among them (41_transfer R140, 40_init R113). -/
def writesBacklight : Instr → Bool
  | .setBacklight _ | .backlightOn | .backlightOff | .init | .initNibble8Bit | .initNibble4Bit => true
  | _ => false

/-- The requests that write the read/write bit of the port (41_transfer R138). -/
def writesRw : Instr → Bool
  | .setRw _ | .init | .initNibble8Bit | .initNibble4Bit => true
  | _ => false

end Sys2Proof.Machine
end

