-- ==== Sys2Proof/Certificates/Slice0/Obligations.lean ====
section
/-! DEFINITION. The statements about the model, each from the rules of spec/ its docstring names. -/

open Sys2Proof Sys2Proof.Machine

/-! ### Reset, encoding, the step -/

/-- 10_state R36, 60_exceptions R280: at reset the mode is CLOSED, so that no driver register and no handle exists (they stand
under mode OPEN), every latch cell is unknown, and every request that would read a register ends with NOT_OPEN. -/
def Obligations.ResetIsClosedWithUnknownLatch : Prop :=
  State.reset.mode = .closed ∧ (∀ i (h : i < 8), State.reset.io.latch[i] = none) ∧
    ∀ i, isRequest i → isOpen i = false → i ∉ placeholders →
      exec i State.reset = .next (State.reset.refusedWith .notOpen)

/-- The two invariants below hold at reset (R36). -/
def Obligations.ResetMeetsTheInvariants : Prop := State.reset.flagsHardwired ∧ State.reset.recordIsWhole

/-- 60_exceptions R253: the block accepts the next request the host presents and carries it out whole. When the frame decodes, the
step is exec of the instruction on the state with the frame taken; that a step with no frame changes nothing is the model's choice
(notes/assumptions/9.md). -/
def Obligations.StepRunsTheDecodedInstruction : Prop :=
  ∀ s : State,
    (∀ f rest i, s.requests = f :: rest → decode f = .ok i → step s = exec i { s with requests := rest }) ∧
      (s.requests = [] → step s = .next s)

/-- 30_encoding R88: a reserved request code, 0x00 or 0x26 to 0xFF, with whatever follows it, ends with ILLEGAL_REQUEST, result
0, no event and no state change, in either mode. -/
def Obligations.ReservedCodesAreRefused : Prop :=
  ∀ (s : State) (op : Byte) (args : List Byte) (rest : List Frame), (op.toNat = 0 ∨ 0x26 ≤ op.toNat) →
    s.requests = .request (op :: args) :: rest →
    step s = .next ({ s with requests := rest }.refusedWith .illegalRequest)

/-- Model's own stops (notes/assumptions/10.md, 11.md): the step stops on a request frame that the port of R86 cannot carry, by the
fault malformedRequest, and on the word 0 (R71) and port writes other than the init nibbles (R81), by the refusal noSuchWord.
Every other frame has a next state. -/
def Obligations.OnlyFramesThatAreNoInstructionStop : Prop :=
  ∀ (s : State) (f : Frame) (rest : List Frame), s.requests = f :: rest →
    ((decode f = .error .emptyRequest ∨ ∃ op, decode f = .error (.malformedRequest op)) →
        step s = .fault .malformedRequest) ∧
      ((decode f = .error .noCommand ∨ ∃ v, decode f = .error (.notAnInitNibble v)) →
        step s = .refused .noSuchWord) ∧
      (((∃ i, decode f = .ok i) ∨ ∃ op, decode f = .error (.reservedCode op)) → ∃ t, step s = .next t)

/-- 30_encoding R71, R80: the most significant 1 of a payload with RS = 0 selects the command, the bits below it are its
fields; the payload 0 is no command; RS = 1 is data. -/
def Obligations.ControllerWordsDecodeByTheirTopBit : Prop :=
  decode (.controllerWord 0b000000001#9) = .ok .clearDisplay ∧
  (∀ x : BitVec 1, decode (.controllerWord (0b00000001#8 ++ x)) = .ok (.returnHome x)) ∧
  (∀ i s : BitVec 1, decode (.controllerWord (0b0000001#7 ++ i ++ s)) = .ok (.entryModeSet i s)) ∧
  (∀ d c b : BitVec 1, decode (.controllerWord (0b000001#6 ++ d ++ c ++ b)) = .ok (.displayControl d c b)) ∧
  (∀ (m r : BitVec 1) (x : BitVec 2), decode (.controllerWord (0b00001#5 ++ m ++ r ++ x)) = .ok (.cursorShift m r x)) ∧
  (∀ (l n f : BitVec 1) (x : BitVec 2),
    decode (.controllerWord (0b0001#4 ++ l ++ n ++ f ++ x)) = .ok (.functionSet l n f x)) ∧
  (∀ slot row : BitVec 3, decode (.controllerWord (0b001#3 ++ slot ++ row)) = .ok (.setCgramAddr slot row)) ∧
  (∀ a : BitVec 7, decode (.controllerWord (0b01#2 ++ a)) = .ok (.setDdramAddr a)) ∧
  (∀ b : Byte, decode (.controllerWord (1#1 ++ b)) = .ok (.data b)) ∧
  decode (.controllerWord 0) = .error .noCommand

/-- Words written out from the spec (R86 and the encodings of 95_test_vectors, R77, R79, R81) decode to their instructions. That a
frame holds the fields as bytes, a 32-bit field lowest byte first, is the model's choice (notes/assumptions/2.md). -/
def Obligations.SpecWordsDecode : Prop :=
  decode (.request [0x01, 0x00, 0x00]) = .ok (.openSession 0 0) ∧
  decode (.request [0x04, 0x61, 0x62, 0x0A, 0x63, 0x64]) = .ok (.write [0x61, 0x62, 0x0A, 0x63, 0x64]) ∧
  decode (.request [0x05, 0xFB, 0xFF, 0xFF, 0xFF, 0x03, 0x00, 0x00, 0x00]) = .ok (.setCursor (-5) 3) ∧
  decode (.request [0x16, 0x01, 0x02, 0x01]) = .ok (.setFlag 1 2 1) ∧
  decode (.request [0x1A, 0x03]) = .ok (.readSwitch 3) ∧
  decode (.request [0x25]) = .ok .rightJustify ∧
  decode (.controllerWord 0x028) = .ok (.functionSet 0 1 0 0) ∧
  decode (.controllerWord 0x0C5) = .ok (.setDdramAddr 0x45) ∧
  decode (.portWrite 0x03) = .ok .initNibble8Bit ∧
  decode (.request [0x26]) = .error (.reservedCode 0x26)

/-- 30_encoding R90: the written requests of the rule's examples denote their requests, in either spelling. -/
def Obligations.WrittenRequestsAssemble : Prop :=
  assemble "SET_CURSOR -5, 3" = some (.setCursor (-5) 3) ∧
  assemble "set_cursor(-5, 3)" = some (.setCursor (-5) 3) ∧
  assemble "WRITE \"ab\\ncd\"" = some (.write [0x61, 0x62, 0x0A, 0x63, 0x64]) ∧
  assemble "SET_FLAG DC, BLINKON, 1" = some (.setFlag 0 0x01 1) ∧
  assemble "STORE_CUSTOM_BITMAP 9, [0,0x0A,0,0x11,0x0E,0,0,0]" =
    some (.storeCustomBitmap 9 [0, 0x0A, 0, 0x11, 0x0E, 0, 0, 0])

/-- R71 to R81, R86: decoding the frame of an instruction gives the instruction back, for every instruction and every value of
every operand, well-formed or not. -/
def Obligations.DecodeOfEncode : Prop := ∀ i : Instr, decode (encode i) = .ok i

/-- R71 to R81, R86: a frame that decodes is the frame of the instruction it decodes to; no bit of it is dropped. -/
def Obligations.EncodeOfDecode : Prop := ∀ (f : Frame) (i : Instr), decode f = .ok i → encode i = f

/-! ### Invariants and rules of the whole machine -/

/-- 10_state R24 to R26, R30, 40_init R116: the hardwired zero bits of the flag registers stay zero, and function_set_flags
stays at 0x00 or 0x08, in every step from every state that has them so. -/
def Obligations.StepKeepsFlagsHardwired : Prop :=
  ∀ s t : State, s.flagsHardwired → step s = .next t → t.flagsHardwired

/-- 00_scope R16, 20_memory R49, 30_encoding R84, R85: the record stays a sequence of whole requests, each a run of events, none
failing but the last, and one response that fits it. -/
def Obligations.StepKeepsTheRecordWhole : Prop :=
  ∀ s t : State, s.recordIsWhole → step s = .next t → t.recordIsWhole

/-- 30_encoding R84, R85, 20_memory R46, R49: every instruction, in every state, appends to the record its events and then exactly
one response, takes one answer of the transport for each transport event, and leaves the parameters and the host's further
requests alone. -/
def Obligations.EveryInstructionEndsInOneResponse : Prop :=
  ∀ (i : Instr) (s : State), ∃ (t : State) (evs : List Event) (r : Response), exec i s = .next t ∧
    t.io.log = s.io.log ++ evs.map Output.event ++ [.response r] ∧
    t.io.transport = s.io.transport.drop (transportCount evs) ∧ t.io.drawn = s.io.drawn + transportCount evs ∧
    t.cfg = s.cfg ∧ t.requests = s.requests

/-- 00_scope R16, 60_exceptions R250, R252, R254: errors are precise. No event but the last of a request fails; it fails exactly
when the response says a transport failure, TRANSPORT_OPEN_FAILURE for TOpen and TRANSPORT_IO_FAILURE for every other event; and a
response other than OK has result 0x00. -/
def Obligations.TransportErrorsArePrecise : Prop :=
  ∀ (i : Instr) (s t : State) (evs : List Event) (r : Response), exec i s = .next t →
    t.io.log = s.io.log ++ evs.map Output.event ++ [.response r] →
    (∀ e ∈ evs.dropLast, e.fails = false) ∧
    (∀ e, evs.getLast? = some e → e.fails = true → r.status = e.failureStatus) ∧
    ((r.status = .transportOpenFailure ∨ r.status = .transportIoFailure) → ∃ e ∈ evs, e.fails = true) ∧
    (r.status ≠ .ok → r.result = 0x00)

/-- 20_memory R37, R39, R48: every register event of a request is at the LCD port, but for the reads of the switch requests, which
are at the switch port and are their only events. -/
def Obligations.OnlyTheTwoPortsAreTouched : Prop :=
  ∀ (i : Instr) (s t : State), exec i s = .next t → ∀ e ∈ s.newEvents t,
    (∀ reg v, e = .rd reg v → if isSwitchRequest i then reg = s.cfg.switchPortReg else reg = s.cfg.lcdPortReg) ∧
    (∀ reg v o, e = .wr reg v o → reg = s.cfg.lcdPortReg ∧ isSwitchRequest i = false) ∧
    (∀ reg b v o, e = .wb reg b v o → reg = s.cfg.lcdPortReg ∧ isSwitchRequest i = false)

/-- 70_reset R283: in the events of every request but SET_ENABLE, which makes no pulse (R139), each change of the enable line is
followed at once by T_PULSE. -/
def Obligations.EnablePulsesAreTimed : Prop :=
  ∀ (i : Instr) (s t : State), (∀ v, i ≠ .setEnable v) → exec i s = .next t → pulsesTimed s.cfg (s.newEvents t) = true

/-- 41_transfer R141 (with R158, R203, R204, R220, R230, R231, R240): the raw requests write no driver register, and neither do the
requests of the files R141 does not name, nor the backlight requests, STORE_CUSTOM_BITMAP and GET_CURSOR_ADDRESS; they leave the mode
and the handle too, whether they complete or not. -/
def Obligations.RawAndReadingRequestsKeepTheRegisters : Prop :=
  ∀ (i : Instr) (s t : State), keepsRegisters i → exec i s = .next t → t.mode = s.mode

/-- 10_state R20's table: a request that moves the cursor changes no other driver register and keeps the session, whether it
completes or not. -/
def Obligations.CursorRequestsChangeOnlyTheCursor : Prop :=
  ∀ (i : Instr) (s t : State) (d : DriverState) (h : Handle), movesCursor i → s.mode = .opened d h → exec i s = .next t →
    ∃ a, t.mode = .opened { d with cursorAddress := a } h

/-- 40_init R116: function_set_flags is written only by INIT, which writes 0x08 (before its command, so that only a transport
failure before step 3 leaves the old value); after the first completed INIT it never changes while the session lasts. -/
def Obligations.OnlyInitWritesFunctionSet : Prop :=
  ∀ (i : Instr) (s t : State) (d d' : DriverState) (h h' : Handle), s.mode = .opened d h → exec i s = .next t →
    t.mode = .opened d' h' →
    (i ≠ .init → d'.functionSetFlags = d.functionSetFlags) ∧
    (i = .init → d'.functionSetFlags = 0x08 ∨
      (d'.functionSetFlags = d.functionSetFlags ∧ t.lastStatus = some .transportIoFailure)) ∧
    (d.functionSetFlags = 0x08 → d'.functionSetFlags = 0x08)

/-- 46_switches R230, R231, 42_cursor R158, 47_unsupported R240: these requests write no state: the mode, the registers and the
latch stay, whether they complete or not. -/
def Obligations.ReadsLeaveTheLatch : Prop :=
  ∀ (i : Instr) (s t : State), (isSwitchRequest i ∨ i = .getCursorAddress ∨ i ∈ placeholders) → exec i s = .next t →
    t.io.latch = s.io.latch ∧ t.mode = s.mode

/-- 41_transfer R138, R140, 70_reset R290: under PORT_READ_MODEL = LATCH a known read/write bit and a known backlight bit persist
through every completed request of a session that is not one of those that write them. -/
def Obligations.ControlBitsPersist : Prop :=
  ∀ (i : Instr) (s t : State), s.cfg.portReadModel = .latch → i ≠ .closeSession → exec i s = .next t →
    t.lastStatus = some .ok →
    (∀ b, writesRw i = false → s.io.latch[5] = some b → t.io.latch[5] = some b) ∧
    (∀ b, writesBacklight i = false → s.io.latch[7] = some b → t.io.latch[7] = some b)

/-! ### Modes and checks -/

/-- 10_state R21, 60_exceptions R252: in mode CLOSED every request other than OPEN and the placeholders ends with NOT_OPEN, no event
and no state change, whatever its operands. -/
def Obligations.RequestsNeedASession : Prop :=
  ∀ (i : Instr) (s : State), s.mode = .closed → isRequest i → isOpen i = false → i ∉ placeholders →
    exec i s = .next (s.refusedWith .notOpen)

/-- The model's choice (notes/assumptions/3.md): a controller word or an init nibble run on its own needs a session too, and writes no
driver register, whether it completes or not. -/
def Obligations.WordsNeedASessionAndKeepTheRegisters : Prop :=
  ∀ (i : Instr) (s : State), isRequest i = false →
    (s.mode = .closed → exec i s = .next (s.refusedWith .notOpen)) ∧ ∀ t, exec i s = .next t → t.mode = s.mode

/-- 30_encoding R89: in a session, operands outside their domain end with ILLEGAL_REQUEST, result 0, no event and no state
change; every other operand value is in domain, so that a well-formed instruction other than OPEN never ends so. -/
def Obligations.OperandsOutsideTheirDomainAreRefused : Prop :=
  ∀ (s : State) (d : DriverState) (h : Handle), s.mode = .opened d h →
    (∀ g m e : Byte, ¬ (g = 0 ∧ m &&& ~~~0x07#8 = 0) → ¬ (g = 1 ∧ m &&& ~~~0x03#8 = 0) →
      exec (.setFlag g m e) s = .next (s.refusedWith .illegalRequest)) ∧
    (∀ n : Byte, 7 < n.toNat → exec (.readSwitch n) s = .next (s.refusedWith .illegalRequest)) ∧
    (∀ msg : List Byte, 0x00 ∈ msg → exec (.write msg) s = .next (s.refusedWith .illegalRequest)) ∧
    (∀ (slot : Byte) (rows : List Byte), rows.length ≠ 8 →
      exec (.storeCustomBitmap slot rows) s = .next (s.refusedWith .illegalRequest)) ∧
    (∀ (i : Instr) (t : State), i.wellFormed → isOpen i = false → exec i s = .next t →
      t.lastStatus ≠ some .illegalRequest)

/-- 47_unsupported R240 to R244: the placeholders end with NOT_IMPLEMENTED, result 0x00, no event and no state change, in either
mode. -/
def Obligations.PlaceholdersAnswerNotImplemented : Prop :=
  decode (.request [0x22]) = .ok .moveLeft ∧ decode (.request [0x23]) = .ok .moveRight ∧
  decode (.request [0x24]) = .ok .leftJustify ∧ decode (.request [0x25]) = .ok .rightJustify ∧
  ∀ s : State, exec .moveLeft s = .next (s.refusedWith .notImplemented) ∧
    exec .moveRight s = .next (s.refusedWith .notImplemented) ∧
    exec .leftJustify s = .next (s.refusedWith .notImplemented) ∧
    exec .rightJustify s = .next (s.refusedWith .notImplemented)

/-! ### Lifecycle -/

/-- 40_init R110: OPEN in mode CLOSED passes its operands to TOpen and creates the registers zeroed, with the handle TOpen yields,
and the latch unchanged; if TOpen fails the mode stays CLOSED and the status is TRANSPORT_OPEN_FAILURE; in mode OPEN it ends with
ILLEGAL_REQUEST and no event. -/
def Obligations.OpenCreatesAZeroedSession : Prop :=
  ∀ (s : State) (busId selectId : Byte),
    (s.mode = .closed → (s.io.replyAt 0).fails = false →
      exec (.openSession busId selectId) s = .next (s.ended ⟨0x00, 0x00, 0x00, 0x00⟩ (s.io.replyAt 0).handle
        (s.io.afterEvents s.io.latch [.tOpen busId selectId (some (s.io.replyAt 0).handle)] 1) 0x00)) ∧
    (s.mode = .closed → (s.io.replyAt 0).fails = true →
      exec (.openSession busId selectId) s =
        .next (s.answered (s.io.afterEvents s.io.latch [.tOpen busId selectId none] 1) .transportOpenFailure)) ∧
    (∀ d h, s.mode = .opened d h → exec (.openSession busId selectId) s = .next (s.refusedWith .illegalRequest))

/-- 40_init R111: CLOSE discards the session (mode CLOSED, no registers, no handle), makes every latch cell unknown and closes the
transport; a failing close answers TRANSPORT_IO_FAILURE with the block already CLOSED; in mode CLOSED it answers NOT_OPEN. -/
def Obligations.CloseDiscardsTheSession : Prop :=
  decode (.request [0x02]) = .ok .closeSession ∧ ∀ s : State,
    (∀ d h, s.mode = .opened d h → (s.io.replyAt 0).fails = false → exec .closeSession s =
      .next ({ s with mode := .closed }.answered (s.io.afterEvents Latch.unknown [.tClose .ok] 1) .ok)) ∧
    (∀ d h, s.mode = .opened d h → (s.io.replyAt 0).fails = true → exec .closeSession s =
      .next ({ s with mode := .closed }.answered (s.io.afterEvents Latch.unknown [.tClose .failed] 1)
        .transportIoFailure)) ∧
    (s.mode = .closed → exec .closeSession s = .next (s.refusedWith .notOpen))

/-- 40_init R112: a completed INIT leaves cursor 0x00, entry mode 0x02, display control 0x07 and function set 0x08, whatever they
were, after its steps in order. -/
def Obligations.InitCompletes : Prop :=
  ∀ (s : State) (d : DriverState) (h : Handle), s.mode = .opened d h → s.io.transportOk 52 →
    exec .init s = .next (s.ended ⟨0x00, 0x02, 0x07, 0x08⟩ h (s.io.afterInit s.cfg) 0x00)

/-- 40_init R113, R114: the 89 events of a completed INIT present the nibbles 3, 3, 3, 2 and the bytes 0x28, 0x08, 0x01, 0x06
and 0x0F, last at least the sum of its delays, and, where the port reads back the latch, leave the latch at 0x0F whatever it
held before. -/
def Obligations.InitTraceAndEndState : Prop :=
  ∀ (s t : State) (d : DriverState) (h : Handle), s.mode = .opened d h → s.io.transportOk 52 → exec .init s = .next t →
    (s.newEvents t).length = 89 ∧
    nibblesOf (s.newEvents t) = [3, 3, 3, 2, 2, 8, 0, 8, 0, 1, 0, 6, 0, 15] ∧
    minDuration (s.newEvents t) = s.cfg.tSetup0.toNat + s.cfg.tSetup1.toNat + s.cfg.tSetup2.toNat +
      28 * s.cfg.tPulse.toNat + 5 * s.cfg.tSettle.toNat + s.cfg.tClear.toNat ∧
    (s.cfg.portReadModel = .latch → t.io.latch = Latch.ofByte 0x0F)

/-- 40_init R112, 00_scope R17: INIT whose transport event n is the first to fail (counted from 0, of 52) ends there with
TRANSPORT_IO_FAILURE and the registers written so far: function set from event 12 on, display control 0x00 from 20, the cursor
and the entry mode from 36, display control 0x07 from 44. Where the first port read fails (n = 13) there are 25 events, and the latch
holds the last write with the register-select line low. -/
def Obligations.InitStopsAtItsFirstFailure : Prop :=
  ∀ (s : State) (d : DriverState) (h : Handle), s.mode = .opened d h →
    (∀ n, n < 52 → s.io.transportOk n → (s.io.replyAt n).fails = true → ∃ t, exec .init s = .next t ∧
      t.lastResponse = some ⟨.transportIoFailure, 0x00⟩ ∧ transportCount (s.newEvents t) = n + 1 ∧
      (∃ e, (s.newEvents t).getLast? = some e ∧ e.fails = true) ∧
      t.mode = .opened
        { cursorAddress := if n < 36 then d.cursorAddress else 0x00
          entryModeFlags := if n < 36 then d.entryModeFlags else 0x02
          displayControlFlags := if n < 20 then d.displayControlFlags else if n < 44 then 0x00 else 0x07
          functionSetFlags := if n < 12 then d.functionSetFlags else 0x08 } h) ∧
    (s.io.transportOk 13 → (s.io.replyAt 13).fails = true → ∃ t, exec .init s = .next t ∧
      t.mode = .opened { d with functionSetFlags := 0x08 } h ∧ t.lastResponse = some ⟨.transportIoFailure, 0x00⟩ ∧
      (s.newEvents t).length = 25 ∧ (s.newEvents t).getLast? = some (.rd s.cfg.lcdPortReg none) ∧
      t.io.latch = ((Latch.ofByte 0x02).setCell 4 (some false)).setCell 6 (some false))

/-! ### Transfers -/

/-- 41_transfer R132, R133, R135, R136: a completed SEND_COMMAND or SEND_DATA emits the 13 events with its register-select value and
payload, and changes only the latch. That a controller word run on its own, other than clear and return-home, does the same with
its payload is the model's choice (notes/assumptions/3.md). -/
def Obligations.TransfersComplete : Prop :=
  ∀ (s : State) (d : DriverState) (h : Handle), s.mode = .opened d h → s.io.transportOk 8 →
    (∀ c : Byte, exec (.sendCommand c) s = .next (s.ended d h (s.io.afterTransfer s.cfg false c) 0x00)) ∧
    (∀ b : Byte, exec (.sendData b) s = .next (s.ended d h (s.io.afterTransfer s.cfg true b) 0x00)) ∧
    (∀ i sh : BitVec 1, exec (.entryModeSet i sh) s =
      .next (s.ended d h (s.io.afterTransfer s.cfg false (BitVec.ofNat 8 (0x04 + 2 * i.toNat + sh.toNat))) 0x00)) ∧
    (∀ on c b : BitVec 1, exec (.displayControl on c b) s =
      .next (s.ended d h
        (s.io.afterTransfer s.cfg false (BitVec.ofNat 8 (0x08 + 4 * on.toNat + 2 * c.toNat + b.toNat))) 0x00)) ∧
    (∀ (sc rl : BitVec 1) (x : BitVec 2), exec (.cursorShift sc rl x) s =
      .next (s.ended d h
        (s.io.afterTransfer s.cfg false (BitVec.ofNat 8 (0x10 + 8 * sc.toNat + 4 * rl.toNat + x.toNat))) 0x00)) ∧
    (∀ (dl n f : BitVec 1) (x : BitVec 2), exec (.functionSet dl n f x) s =
      .next (s.ended d h (s.io.afterTransfer s.cfg false
        (BitVec.ofNat 8 (0x20 + 16 * dl.toNat + 8 * n.toNat + 4 * f.toNat + x.toNat))) 0x00)) ∧
    (∀ slot row : BitVec 3, exec (.setCgramAddr slot row) s =
      .next (s.ended d h
        (s.io.afterTransfer s.cfg false (BitVec.ofNat 8 (0x40 + 8 * slot.toNat + row.toNat))) 0x00)) ∧
    (∀ a : BitVec 7, exec (.setDdramAddr a) s =
      .next (s.ended d h (s.io.afterTransfer s.cfg false (BitVec.ofNat 8 (0x80 + a.toNat))) 0x00)) ∧
    (∀ b : Byte, exec (.data b) s = .next (s.ended d h (s.io.afterTransfer s.cfg true b) 0x00))

/-- The model's choice (notes/assumptions/3.md, 4.md): the words CLEARDISPLAY and RETURNHOME run on their own are commands followed by
T_SETTLE and then T_CLEAR; they change no register. -/
def Obligations.LongCommandWordsComplete : Prop :=
  ∀ (s : State) (d : DriverState) (h : Handle), s.mode = .opened d h → s.io.transportOk 8 →
    exec .clearDisplay s =
      .next (s.ended d h ((s.io.afterTransfer s.cfg false 0x01).afterDelay s.cfg.tClear) 0x00) ∧
    ∀ x : BitVec 1, exec (.returnHome x) s =
      .next (s.ended d h
        ((s.io.afterTransfer s.cfg false (BitVec.ofNat 8 (0x02 + x.toNat))).afterDelay s.cfg.tClear) 0x00)

/-- 41_transfer R134, R131: a completed SEND_BYTE emits the 11 events of send_byte and nothing else, and changes only the latch. -/
def Obligations.SendByteCompletes : Prop :=
  ∀ (s : State) (d : DriverState) (h : Handle) (b : Byte), s.mode = .opened d h → s.io.transportOk 7 →
    exec (.sendByte b) s = .next (s.ended d h (s.io.afterByte s.cfg b) 0x00)

/-- 10_state R28, 41_transfer R131: the one read of SEND_BYTE returns, under LATCH, each known latch cell and the draw's bit for
each unknown one, and under DRAW the draw; both nibble writes carry its upper nibble. -/
def Obligations.PortReadsFollowTheModel : Prop :=
  ∀ (s t : State) (d : DriverState) (h : Handle) (b : Byte), s.mode = .opened d h → s.io.transportOk 7 →
    exec (.sendByte b) s = .next t → ∃ v : Byte,
      (s.newEvents t)[0]? = some (.rd s.cfg.lcdPortReg (some v)) ∧
      (s.newEvents t)[1]? = some (.wr s.cfg.lcdPortReg (BitVec.ofNat 8 (16 * (v.toNat / 16) + b.toNat / 16)) .ok) ∧
      (s.newEvents t)[6]? = some (.wr s.cfg.lcdPortReg (BitVec.ofNat 8 (16 * (v.toNat / 16) + b.toNat % 16)) .ok) ∧
      (s.cfg.portReadModel = .latch →
        ∀ i (hi : i < 8), v.getLsbD i = (s.io.latch[i]).getD ((s.io.replyAt 0).byte.getLsbD i)) ∧
      (s.cfg.portReadModel = .draw → v = (s.io.replyAt 0).byte)

/-- 41_transfer R137 to R140, 30_encoding R87, 44_control R203, R204: a completed bit request is one BitWrite of its pin, 1 when the
operand is nonzero, and changes only that latch cell. -/
def Obligations.PinRequestsComplete : Prop :=
  ∀ (s : State) (d : DriverState) (h : Handle), s.mode = .opened d h → s.io.transportOk 1 →
    (∀ v : Byte, exec (.setRs v) s = .next (s.ended d h (s.io.afterBit s.cfg 6 (decide (v.toNat ≠ 0))) 0x00)) ∧
    (∀ v : Byte, exec (.setRw v) s = .next (s.ended d h (s.io.afterBit s.cfg 5 (decide (v.toNat ≠ 0))) 0x00)) ∧
    (∀ v : Byte, exec (.setEnable v) s = .next (s.ended d h (s.io.afterBit s.cfg 4 (decide (v.toNat ≠ 0))) 0x00)) ∧
    (∀ v : Byte, exec (.setBacklight v) s = .next (s.ended d h (s.io.afterBit s.cfg 7 (decide (v.toNat ≠ 0))) 0x00)) ∧
    exec .backlightOn s = .next (s.ended d h (s.io.afterBit s.cfg 7 true) 0x00) ∧
    exec .backlightOff s = .next (s.ended d h (s.io.afterBit s.cfg 7 false) 0x00)

/-- The model's choice (notes/assumptions/3.md): an init nibble run on its own is one beat, a full port write of 0x03 or 0x02 and an
enable pulse, and changes only the latch. -/
def Obligations.InitNibblesAreOneBeat : Prop :=
  ∀ (s : State) (d : DriverState) (h : Handle), s.mode = .opened d h → s.io.transportOk 3 →
    exec .initNibble8Bit s = .next (s.ended d h (s.io.afterBeat s.cfg 0x03) 0x00) ∧
    exec .initNibble4Bit s = .next (s.ended d h (s.io.afterBeat s.cfg 0x02) 0x00)

/-- 10_state R27, R28: a failed BitWrite makes its cell unknown and keeps the others, a failed MemWrite makes every cell unknown, and a
failed read of the port leaves the latch, for every interface, pin and value. So the latch any instruction leaves is the one its
events leave, and one whose last event is a failed write or read has done just that to the latch before it. Each bit request ends
with TRANSPORT_IO_FAILURE at its one event. That words and init nibbles run on their own do so, an init nibble whose port write fails
among them, is the model's choice (notes/assumptions/3.md). -/
def Obligations.FailedWritesMakeCellsUnknown : Prop :=
  (∀ (cfg : Config) (io : Io), (io.replyAt 0).fails = true →
    (∀ (i : BitVec 3) (b : Bool), writeLcdBit cfg i b io =
      .failed (io.afterEvents (io.latch.setCell i none) [.wb cfg.lcdPortReg i b .failed] 1)) ∧
    (∀ v : Byte, writeLcdPort cfg v io = .failed (io.afterEvents Latch.unknown [.wr cfg.lcdPortReg v .failed] 1)) ∧
    readLcdPort cfg io = .failed (io.afterEvents io.latch [.rd cfg.lcdPortReg none] 1)) ∧
  (∀ (i : Instr) (s t : State), exec i s = .next t →
    t.io.latch = latchAfter s.io.latch (s.newEvents t) ∧
    (∀ reg bit v, (s.newEvents t).getLast? = some (.wb reg bit v .failed) →
      t.io.latch = (latchAfter s.io.latch (s.newEvents t).dropLast).setCell bit none) ∧
    (∀ reg v, (s.newEvents t).getLast? = some (.wr reg v .failed) → t.io.latch = Latch.unknown) ∧
    (∀ reg, (s.newEvents t).getLast? = some (.rd reg none) →
      t.io.latch = latchAfter s.io.latch (s.newEvents t).dropLast)) ∧
  ∀ (s : State) (d : DriverState) (h : Handle), s.mode = .opened d h → (s.io.replyAt 0).fails = true →
    (∀ (i : Instr) (bit : BitVec 3) (b : Bool),
      ((∃ v : Byte, b = decide (v.toNat ≠ 0) ∧
          (i, bit) ∈ [(.setRs v, 6), (.setRw v, 5), (.setEnable v, 4), (.setBacklight v, 7)]) ∨
        (i, bit, b) ∈ [(.backlightOn, 7, true), (.backlightOff, 7, false)]) →
      exec i s = .next (s.answered (s.io.afterEvents (s.io.latch.setCell bit none)
        [.wb s.cfg.lcdPortReg bit b .failed] 1) .transportIoFailure)) ∧
    ∀ (i : Instr) (v : Byte), (i, v) ∈ [(.initNibble8Bit, 0x03), (.initNibble4Bit, 0x02)] →
      exec i s = .next (s.answered (s.io.afterEvents Latch.unknown [.wr s.cfg.lcdPortReg v .failed] 1) .transportIoFailure)

/-! ### Cursor -/

/-- 42_cursor R155, R150, R153: SET_CURSOR stores the address of the clamped column and row, reduced modulo 80 only under
SETCURSOR_WRAP, sends the DDRAM-set command and returns the address. -/
def Obligations.SetCursorCompletes : Prop :=
  ∀ (s : State) (d : DriverState) (h : Handle) (col row : BitVec 32), s.mode = .opened d h → s.io.transportOk 8 →
    ∀ c r : Nat, c = (max 0 (min col.toInt 39)).toNat → r = (max 0 (min row.toInt 1)).toNat →
    ∀ a : Byte, a.toNat = (if s.cfg.setCursorWrap then (c + 0x40 * r) % 80 else c + 0x40 * r) →
      exec (.setCursor col row) s =
        .next (s.ended { d with cursorAddress := a } h (s.io.afterTransfer s.cfg false (0x80 ||| a)) a)

/-- 42_cursor R157, R158: SET_CURSOR_ADDRESS stores its operand modulo 80, sends the DDRAM-set command and returns the address;
GET_CURSOR_ADDRESS returns the stored address with no event. -/
def Obligations.CursorAddressRequestsComplete : Prop :=
  ∀ (s : State) (d : DriverState) (h : Handle), s.mode = .opened d h →
    (∀ addr a : Byte, a.toNat = addr.toNat % 80 → s.io.transportOk 8 →
      exec (.setCursorAddress addr) s =
        .next (s.ended { d with cursorAddress := a } h (s.io.afterTransfer s.cfg false (0x80 ||| a)) a)) ∧
    exec .getCursorAddress s = .next (s.ended d h s.io d.cursorAddress)

/-- 42_cursor R159, R160: CLEAR and HOME send their command, wait T_SETTLE and T_CLEAR, and set the cursor to 0x00; the flag registers
stay. -/
def Obligations.ClearAndHomeComplete : Prop :=
  ∀ (s : State) (d : DriverState) (h : Handle), s.mode = .opened d h → s.io.transportOk 8 →
    exec .clear s = .next (s.ended { d with cursorAddress := 0x00 } h
      ((s.io.afterTransfer s.cfg false 0x01).afterDelay s.cfg.tClear) 0x00) ∧
    exec .home s = .next (s.ended { d with cursorAddress := 0x00 } h
      ((s.io.afterTransfer s.cfg false 0x02).afterDelay s.cfg.tClear) 0x00)

/-- 42_cursor R155, R157 (the store precedes the command): whatever the transport does, SET_CURSOR and SET_CURSOR_ADDRESS leave the
new address in the register. -/
def Obligations.CursorMovesStoreBeforeSending : Prop :=
  ∀ (s t : State) (d : DriverState) (h : Handle), s.mode = .opened d h →
    (∀ col row : BitVec 32, exec (.setCursor col row) s = .next t →
      t.mode = .opened { d with cursorAddress := cursorTarget s.cfg col row } h) ∧
    (∀ addr : Byte, exec (.setCursorAddress addr) s = .next t →
      t.mode = .opened { d with cursorAddress := BitVec.ofNat 8 (addr.toNat % 80) } h)

/-- 42_cursor R159, R160, 45_glyphs R222: CLEAR, HOME and WRITE_CUSTOM_BITMAP write the cursor after their last event, so that a
transport failure leaves it as it was. -/
def Obligations.FailuresBeforeTheCursorWriteKeepIt : Prop :=
  ∀ (i : Instr) (s t : State), (i = .clear ∨ i = .home ∨ ∃ slot, i = .writeCustomBitmap slot) → exec i s = .next t →
    t.lastStatus = some .transportIoFailure → t.mode = s.mode

/-- 42_cursor R153: columns are clamped into 0 to 39 and rows into 0 to 1, compared as signed integers; out-of-range columns and rows
behave as the clamped ones and are not rejected; SET_CURSOR -5, 3 is SET_CURSOR 0, 1. -/
def Obligations.OutOfRangeCursorsAreClamped : Prop :=
  (∀ v : BitVec 32, (clampCol v : Int) = max 0 (min v.toInt 39) ∧ (clampRow v : Int) = max 0 (min v.toInt 1)) ∧
  (∀ (s : State) (col row : BitVec 32), exec (.setCursor col row) s =
    exec (.setCursor (BitVec.ofInt 32 (max 0 (min col.toInt 39))) (BitVec.ofInt 32 (max 0 (min row.toInt 1)))) s) ∧
  ∀ s : State, exec (.setCursor (-5) 3) s = exec (.setCursor 0 1) s

/-- 42_cursor R157, R158 ("For all addr: set_cursor_address(addr) then get_cursor_address() == addr mod 80"), whatever the transport
does in between. -/
def Obligations.GetAfterSetCursorAddress : Prop :=
  ∀ (s t : State) (d : DriverState) (h : Handle) (addr : Byte), s.mode = .opened d h →
    exec (.setCursorAddress addr) s = .next t → ∃ u, exec .getCursorAddress t = .next u ∧
      u.lastResponse = some ⟨.ok, BitVec.ofNat 8 (addr.toNat % 80)⟩

/-- 42_cursor R150 to R152: the address of a column and a row is the column plus the row's offset; the column of any address is the
address modulo 0x40, and its row is 1 above 0x40 and 0 at 0x40 and below; the round trip fails only at column 0 of row 1. -/
def Obligations.GeometryRoundTrip : Prop :=
  (∀ col row, col < 40 → row < 2 → (colrow2address col row).toNat = (if row = 0 then 0x00 else 0x40) + col ∧
    address2col (colrow2address col row) = col ∧
    ((col, row) ≠ (0, 1) → address2row (colrow2address col row) = row)) ∧
  ∀ a : Byte, address2col a = a.toNat % 0x40 ∧ address2col a < 64 ∧ (a.toNat ≤ 0x40 → address2row a = 0) ∧
    (0x40 < a.toNat → address2row a = 1)

/-- 42_cursor R155, R156: the address of SET_CURSOR is in 0x00 to 0x27 or 0x40 to 0x67 without SETCURSOR_WRAP, below 80 with it, and
the same under both for row 0 and for columns 0 to 15 of row 1. -/
def Obligations.CursorTargetsAndTheirRange : Prop :=
  ∀ (cfg : Config) (col row : BitVec 32),
    ((cursorTarget { cfg with setCursorWrap := false } col row).toNat ≤ 0x27 ∨
      (0x40 ≤ (cursorTarget { cfg with setCursorWrap := false } col row).toNat ∧
        (cursorTarget { cfg with setCursorWrap := false } col row).toNat ≤ 0x67)) ∧
    (cursorTarget { cfg with setCursorWrap := true } col row).toNat < 80 ∧
    ((row.toInt ≤ 0 ∨ col.toInt ≤ 15) →
      cursorTarget { cfg with setCursorWrap := false } col row = cursorTarget { cfg with setCursorWrap := true } col row)

/-! ### Text and glyphs -/

/-- 43_text R180 to R182: WRITE re-synchronises to the stored cursor, sends each byte as data and counts it modulo 256, moves to 0x40
with the command 0xC0 at each newline, and returns the final cursor. -/
def Obligations.WriteCompletes : Prop :=
  ∀ (s : State) (d : DriverState) (h : Handle) (msg : List Byte), s.mode = .opened d h → 0x00 ∉ msg →
    s.io.transportOk (8 * (1 + msg.length)) →
    exec (.write msg) s = .next (s.ended { d with cursorAddress := cursorAfterMessage d.cursorAddress msg } h
      (s.io.afterTransfers s.cfg ((false, 0x80 ||| d.cursorAddress) :: msg.map transferOfByte))
      (cursorAfterMessage d.cursorAddress msg))

/-- 43_text R180, R181: a WRITE that fails inside its re-sync command (transport events 0 to 7) has counted no byte and leaves the
registers as they were; one that fails inside the transfer of a byte has counted every byte before it and, of that byte, only a
newline's move, which is stored before its command. -/
def Obligations.WriteCountsTheBytesSent : Prop :=
  ∀ (s : State) (d : DriverState) (h : Handle), s.mode = .opened d h →
    (∀ (msg : List Byte) (j : Nat), 0x00 ∉ msg → j < 8 → s.io.transportOk j → (s.io.replyAt j).fails = true →
      ∃ t, exec (.write msg) s = .next t ∧ t.lastResponse = some ⟨.transportIoFailure, 0x00⟩ ∧ t.mode = .opened d h) ∧
    ∀ (sent rest : List Byte) (b : Byte) (j : Nat), 0x00 ∉ sent ++ b :: rest → j < 8 →
      s.io.transportOk (8 * (1 + sent.length) + j) → (s.io.replyAt (8 * (1 + sent.length) + j)).fails = true →
      ∃ t, exec (.write (sent ++ b :: rest)) s = .next t ∧ t.lastResponse = some ⟨.transportIoFailure, 0x00⟩ ∧
        t.mode = .opened { d with cursorAddress :=
          if b = 0x0A then 0x40 else cursorAfterMessage d.cursorAddress sent } h

/-- 43_text R184: a completed WRITE of a message with k newlines and n other bytes emits 13 x (1 + k + n) events, with a
minimum duration of (1 + k + n) x (4 x T_PULSE + T_SETTLE). -/
def Obligations.WriteEventCountAndDuration : Prop :=
  ∀ (s t : State) (d : DriverState) (h : Handle) (msg : List Byte) (k n : Nat), s.mode = .opened d h → 0x00 ∉ msg →
    s.io.transportOk (8 * (1 + msg.length)) → exec (.write msg) s = .next t →
    k = msg.count 0x0A → n = (msg.filter (· ≠ 0x0A)).length →
    (s.newEvents t).length = 13 * (1 + k + n) ∧
    minDuration (s.newEvents t) = (1 + k + n) * (4 * s.cfg.tPulse.toNat + s.cfg.tSettle.toNat)

/-- 45_glyphs R220, R221: STORE_CUSTOM_BITMAP sends SETCGRAMADDR of the masked slot and the 8 rows as data, unmasked and in order, and
changes no register. -/
def Obligations.StoreCustomBitmapCompletes : Prop :=
  ∀ (s : State) (d : DriverState) (h : Handle) (slot : Byte) (rows : List Byte), s.mode = .opened d h → rows.length = 8 →
    s.io.transportOk 72 →
    exec (.storeCustomBitmap slot rows) s = .next (s.ended d h (s.io.afterTransfers s.cfg
      ((false, BitVec.ofNat 8 (0x40 + 8 * (slot.toNat % 8))) :: rows.map fun b => (true, b))) 0x00)

/-- 45_glyphs R221: slots that differ by a multiple of 8 are the same glyph, in every state and whatever the rows; the command sent
sets the CGRAM address (slot & 7) << 3, which is in 0x00 to 0x38. -/
def Obligations.GlyphSlotsAreMasked : Prop :=
  (∀ (s : State) (slot slot' : Byte) (rows : List Byte), slot.toNat % 8 = slot'.toNat % 8 →
    exec (.storeCustomBitmap slot rows) s = exec (.storeCustomBitmap slot' rows) s) ∧
  ∀ slot : Byte, decode (.controllerWord (0#1 ++ cgramPayload slot)) = .ok (.setCgramAddr (slot.extractLsb' 0 3) 0) ∧
    ((cgramPayload slot).extractLsb' 0 6).toNat = (slot.toNat % 8) * 8 ∧ (slot.toNat % 8) * 8 ≤ 0x38

/-- 45_glyphs R222: WRITE_CUSTOM_BITMAP re-synchronises to the stored cursor, sends the slot unmasked as data, advances the cursor by
1 modulo 256 and returns it. -/
def Obligations.WriteCustomBitmapCompletes : Prop :=
  ∀ (s : State) (d : DriverState) (h : Handle) (slot : Byte), s.mode = .opened d h → s.io.transportOk 16 →
    exec (.writeCustomBitmap slot) s = .next (s.ended { d with cursorAddress := d.cursorAddress + 1 } h
      (s.io.afterTransfers s.cfg [(false, 0x80 ||| d.cursorAddress), (true, slot)]) (d.cursorAddress + 1))

/-! ### Flags -/

/-- 44_control R190 to R192: SET_FLAG in its domain sets or clears the mask's bits of its group's register, keeps the others, sends
the group's full command, and touches no other register. -/
def Obligations.SetFlagCompletes : Prop :=
  ∀ (s : State) (d : DriverState) (h : Handle) (mask enabled v : Byte), s.mode = .opened d h → s.io.transportOk 8 →
    (mask &&& ~~~0x07#8 = 0 →
      v = (if enabled = 0 then d.displayControlFlags &&& ~~~mask else d.displayControlFlags ||| mask) →
      exec (.setFlag 0 mask enabled) s = .next (s.ended { d with displayControlFlags := v } h
        (s.io.afterTransfer s.cfg false (0x08 ||| v)) 0x00)) ∧
    (mask &&& ~~~0x03#8 = 0 →
      v = (if enabled = 0 then d.entryModeFlags &&& ~~~mask else d.entryModeFlags ||| mask) →
      exec (.setFlag 1 mask enabled) s = .next (s.ended { d with entryModeFlags := v } h
        (s.io.afterTransfer s.cfg false (0x04 ||| v)) 0x00))

/-- 44_control R193 to R198: each display-control wrapper, by its request code, sets or clears its bit of display_control_flags,
sends DISPLAYCONTROL with the register, even where no bit changes, and touches no other register. -/
def Obligations.DisplayWrappersComplete : Prop :=
  (decode (.request [0x0A]) = .ok .displayOn ∧ decode (.request [0x0B]) = .ok .displayOff ∧
    decode (.request [0x0C]) = .ok .cursorOn ∧ decode (.request [0x0D]) = .ok .cursorOff ∧
    decode (.request [0x0E]) = .ok .blinkOn ∧ decode (.request [0x0F]) = .ok .blinkOff) ∧
  ∀ (s : State) (d : DriverState) (h : Handle), s.mode = .opened d h → s.io.transportOk 8 →
    ∀ i v, (i, v) ∈ [(Instr.displayOn, d.displayControlFlags ||| 0x04), (.displayOff, d.displayControlFlags &&& ~~~0x04),
        (.cursorOn, d.displayControlFlags ||| 0x02), (.cursorOff, d.displayControlFlags &&& ~~~0x02),
        (.blinkOn, d.displayControlFlags ||| 0x01), (.blinkOff, d.displayControlFlags &&& ~~~0x01)] →
      exec i s = .next (s.ended { d with displayControlFlags := v } h
        (s.io.afterTransfer s.cfg false (0x08 ||| v)) 0x00)

/-- 44_control R199 to R202: each entry-mode wrapper, by its request code, sets or clears its bit of entry_mode_flags, sends
ENTRYMODESET with the register, and touches no other register. -/
def Obligations.EntryModeWrappersComplete : Prop :=
  (decode (.request [0x12]) = .ok .leftToRight ∧ decode (.request [0x13]) = .ok .rightToLeft ∧
    decode (.request [0x14]) = .ok .autoscrollOn ∧ decode (.request [0x15]) = .ok .autoscrollOff) ∧
  ∀ (s : State) (d : DriverState) (h : Handle), s.mode = .opened d h → s.io.transportOk 8 →
    ∀ i v, (i, v) ∈ [(Instr.leftToRight, d.entryModeFlags ||| 0x02), (.rightToLeft, d.entryModeFlags &&& ~~~0x02),
        (.autoscrollOn, d.entryModeFlags ||| 0x01), (.autoscrollOff, d.entryModeFlags &&& ~~~0x01)] →
      exec i s = .next (s.ended { d with entryModeFlags := v } h
        (s.io.afterTransfer s.cfg false (0x04 ||| v)) 0x00)

/-- 44_control R190 (the register is written before the command), 10_state R30: whatever the transport does, a SET_FLAG in its
domain changes exactly the mask's bits of its group's register, to the value asked for, and no other register. -/
def Obligations.FlagWritesChangeOnlyTheMask : Prop :=
  ∀ (s t : State) (d : DriverState) (h : Handle) (mask enabled : Byte), s.mode = .opened d h →
    (mask &&& ~~~0x07#8 = 0 → exec (.setFlag 0 mask enabled) s = .next t →
      ∃ v, t.mode = .opened { d with displayControlFlags := v } h ∧
        ∀ i, i < 8 → v.getLsbD i =
          if mask.getLsbD i then decide (enabled ≠ 0) else d.displayControlFlags.getLsbD i) ∧
    (mask &&& ~~~0x03#8 = 0 → exec (.setFlag 1 mask enabled) s = .next t →
      ∃ v, t.mode = .opened { d with entryModeFlags := v } h ∧
        ∀ i, i < 8 → v.getLsbD i =
          if mask.getLsbD i then decide (enabled ≠ 0) else d.entryModeFlags.getLsbD i)

/-- 44_control R190 ("setting blink on then off leaves display and cursor bits unchanged from their prior values"), whatever the
transport does. -/
def Obligations.BlinkOnThenOffKeepsTheOthers : Prop :=
  ∀ (s t u : State) (d : DriverState) (h : Handle), s.mode = .opened d h → exec .blinkOn s = .next t →
    exec .blinkOff t = .next u → u.mode = .opened { d with displayControlFlags := d.displayControlFlags &&& 0xFE } h

/-- 44_control R191 with 30_encoding R71: while the flag registers are hardwired as they should be, the payload a flag request sends
is its group's command and carries the register's flags in its fields. -/
def Obligations.FlagPayloadsStayInTheirCommand : Prop :=
  ∀ (d : DriverState) (g : Group) (mask : Byte) (enabled : Bool), d.hardwired → mask &&& ~~~g.maskBits = 0 →
    ∀ v, v = updateMask enabled mask (d.flags g) →
    (d.withFlags g v).hardwired ∧
    decode (.controllerWord (0#1 ++ g.payload v)) =
      match g with
      | .dc => .ok (.displayControl (v.extractLsb' 2 1) (v.extractLsb' 1 1) (v.extractLsb' 0 1))
      | .em => .ok (.entryModeSet (v.extractLsb' 1 1) (v.extractLsb' 0 1))

/-- 30_encoding R91: each wrapper request, by a request code of its own, is identical in events, state change and response to its
expansion, in every state. -/
def Obligations.WrappersAreTheirExpansions : Prop :=
  [0x0A, 0x0B, 0x0C, 0x0D, 0x0E, 0x0F, 0x12, 0x13, 0x14, 0x15, 0x10, 0x11].map (fun op => decode (.request [op])) =
    [.ok .displayOn, .ok .displayOff, .ok .cursorOn, .ok .cursorOff, .ok .blinkOn, .ok .blinkOff, .ok .leftToRight,
      .ok .rightToLeft, .ok .autoscrollOn, .ok .autoscrollOff, .ok .backlightOn, .ok .backlightOff] ∧
  ∀ s : State,
    exec .displayOn s = exec (.setFlag 0 0x04 1) s ∧ exec .displayOff s = exec (.setFlag 0 0x04 0) s ∧
    exec .cursorOn s = exec (.setFlag 0 0x02 1) s ∧ exec .cursorOff s = exec (.setFlag 0 0x02 0) s ∧
    exec .blinkOn s = exec (.setFlag 0 0x01 1) s ∧ exec .blinkOff s = exec (.setFlag 0 0x01 0) s ∧
    exec .leftToRight s = exec (.setFlag 1 0x02 1) s ∧ exec .rightToLeft s = exec (.setFlag 1 0x02 0) s ∧
    exec .autoscrollOn s = exec (.setFlag 1 0x01 1) s ∧ exec .autoscrollOff s = exec (.setFlag 1 0x01 0) s ∧
    exec .backlightOn s = exec (.setBacklight 1) s ∧ exec .backlightOff s = exec (.setBacklight 0) s

/-! ### Switches -/

/-- 46_switches R230, R231: a completed switch request is one read of the switch port, whose value is the transport's draw;
READ_SWITCHES returns it unmodified and READ_SWITCH its bit n, as 0x00 or 0x01; nothing else changes. -/
def Obligations.SwitchReadsComplete : Prop :=
  ∀ (s : State) (d : DriverState) (h : Handle) (v : Byte), s.mode = .opened d h → s.io.transportOk 1 →
    v = (s.io.replyAt 0).byte →
    exec .readSwitches s = .next (s.ended d h
      (s.io.afterEvents s.io.latch [.rd s.cfg.switchPortReg (some v)] 1) v) ∧
    ∀ n : Byte, n.toNat ≤ 7 → exec (.readSwitch n) s = .next (s.ended d h
      (s.io.afterEvents s.io.latch [.rd s.cfg.switchPortReg (some v)] 1) (if v.getLsbD n.toNat then 0x01 else 0x00))
end

