-- ==== Sys2Proof/Laws/State.lean ====
section
/-! SUPPORT. One lemma per field for each named update of State, Io and DriverState, so that no proof unfolds a record update. -/

namespace Sys2Proof.Machine

/-! ### Io -/

@[simp] theorem Io.record_latch (io : Io) (e : Event) : (io.record e).latch = io.latch := rfl
@[simp] theorem Io.record_log (io : Io) (e : Event) : (io.record e).log = io.log ++ [.event e] := rfl
@[simp] theorem Io.record_transport (io : Io) (e : Event) : (io.record e).transport = io.transport := rfl
@[simp] theorem Io.record_drawn (io : Io) (e : Event) : (io.record e).drawn = io.drawn := rfl

@[simp] theorem Io.takeReply_latch (io : Io) : io.takeReply.latch = io.latch := rfl
@[simp] theorem Io.takeReply_log (io : Io) : io.takeReply.log = io.log := rfl
@[simp] theorem Io.takeReply_transport (io : Io) : io.takeReply.transport = io.transport.tail := rfl
@[simp] theorem Io.takeReply_drawn (io : Io) : io.takeReply.drawn = io.drawn + 1 := rfl

@[simp] theorem Io.setLatch_latch (io : Io) (l : Latch) : (io.setLatch l).latch = l := rfl
@[simp] theorem Io.setLatch_log (io : Io) (l : Latch) : (io.setLatch l).log = io.log := rfl
@[simp] theorem Io.setLatch_transport (io : Io) (l : Latch) : (io.setLatch l).transport = io.transport := rfl
@[simp] theorem Io.setLatch_drawn (io : Io) (l : Latch) : (io.setLatch l).drawn = io.drawn := rfl

/-! ### State -/

@[simp] theorem State.respond_cfg (s : State) (e : Status) (v : Byte) : (s.respond e v).cfg = s.cfg := rfl
@[simp] theorem State.respond_mode (s : State) (e : Status) (v : Byte) : (s.respond e v).mode = s.mode := rfl
@[simp] theorem State.respond_requests (s : State) (e : Status) (v : Byte) :
    (s.respond e v).requests = s.requests := rfl
@[simp] theorem State.respond_latch (s : State) (e : Status) (v : Byte) : (s.respond e v).io.latch = s.io.latch := rfl
@[simp] theorem State.respond_log (s : State) (e : Status) (v : Byte) :
    (s.respond e v).io.log = s.io.log ++ [.response ⟨e, v⟩] := rfl
@[simp] theorem State.respond_transport (s : State) (e : Status) (v : Byte) :
    (s.respond e v).io.transport = s.io.transport := rfl
@[simp] theorem State.respond_drawn (s : State) (e : Status) (v : Byte) : (s.respond e v).io.drawn = s.io.drawn := rfl

/-- Raising an error is a response with result 0x00. -/
@[simp] theorem State.raise_eq (s : State) (e : Status) : s.raise e = s.respond e 0x00 := rfl
/-- Completing is a response with status OK. -/
@[simp] theorem State.complete_eq (s : State) (v : Byte) : s.complete v = s.respond .ok v := rfl

@[simp] theorem State.accept_cfg (s : State) (r : List Frame) : (s.accept r).cfg = s.cfg := rfl
@[simp] theorem State.accept_mode (s : State) (r : List Frame) : (s.accept r).mode = s.mode := rfl
@[simp] theorem State.accept_io (s : State) (r : List Frame) : (s.accept r).io = s.io := rfl
@[simp] theorem State.accept_requests (s : State) (r : List Frame) : (s.accept r).requests = r := rfl

/-! ### DriverState -/

@[simp] theorem DriverState.withFlags_flags (d : DriverState) (g : Group) (v : Byte) : (d.withFlags g v).flags g = v := by
  cases g <;> rfl
@[simp] theorem DriverState.withFlags_cursor (d : DriverState) (g : Group) (v : Byte) :
    (d.withFlags g v).cursorAddress = d.cursorAddress := by cases g <;> rfl
@[simp] theorem DriverState.withFlags_functionSet (d : DriverState) (g : Group) (v : Byte) :
    (d.withFlags g v).functionSetFlags = d.functionSetFlags := by cases g <;> rfl
/-- The other group's register is kept. -/
theorem DriverState.withFlags_flags_ne (d : DriverState) {g g' : Group} (v : Byte) (h : g' ≠ g) :
    (d.withFlags g v).flags g' = d.flags g' := by
  cases g <;> cases g' <;> first | rfl | exact absurd rfl h

end Sys2Proof.Machine
end

