-- ==== Sys2Proof/Laws/Latch.lean ====
section
/-! SUPPORT. The port latch: reading back what was written, and one cell at a time (10_state R27, R28). -/

namespace Sys2Proof.Machine

theorem Latch.getElem_unknown (i : Nat) (h : i < 8) : Latch.unknown[i] = none := by simp [Latch.unknown]

theorem Latch.getElem_ofByte (v : Byte) (i : Nat) (h : i < 8) : (Latch.ofByte v)[i] = some (v.getLsbD i) := by
  simp [Latch.ofByte, BitVec.getLsbD_eq_getElem h]

theorem Latch.getElem_setCell (l : Latch) (i : BitVec 3) (c : Option Bool) (j : Nat) (h : j < 8) :
    (l.setCell i c)[j] = if i.toNat = j then c else l[j] := by
  simp [Latch.setCell, Vector.getElem_set]

theorem Latch.getLsbD_readWith (l : Latch) (draw : Byte) (i : Nat) (h : i < 8) :
    (l.readWith draw).getLsbD i = (l[i]).getD (draw.getLsbD i) := by
  simp [Latch.readWith, h]

/-- A known latch reads as the byte it holds, whatever the draw. -/
@[simp] theorem Latch.readWith_ofByte (v draw : Byte) : (Latch.ofByte v).readWith draw = v := by
  ext i hi
  simp [Latch.readWith, Latch.ofByte]

/-- An unknown latch reads as the draw. -/
@[simp] theorem Latch.readWith_unknown (draw : Byte) : Latch.unknown.readWith draw = draw := by
  ext i hi
  simp [Latch.readWith, Latch.unknown]

@[simp] theorem latchAfter_nil (l : Latch) : latchAfter l [] = l := rfl

/-- The latch after two traces in a row. -/
@[simp] theorem latchAfter_append (l : Latch) (a b : List Event) : latchAfter l (a ++ b) = latchAfter (latchAfter l a) b :=
  List.foldl_append ..

/-- A cell written twice keeps the second value. -/
@[simp] theorem Latch.setCell_setCell (l : Latch) (i : BitVec 3) (c c' : Option Bool) :
    (l.setCell i c).setCell i c' = l.setCell i c' := by
  ext j hj : 1
  simp only [Latch.getElem_setCell]
  split <;> rfl

end Sys2Proof.Machine
end

