-- ==== Sys2Proof/Laws/Ops.lean ====
section
/-! SUPPORT. The shared operations: what each does when the transport does not fail, as one closed form, and everything each can do
in any case, as one predicate that composes. -/

namespace Sys2Proof.Machine

/-! ### Answers used up -/

@[simp] theorem Io.afterEvents_latch (io : Io) (l : Latch) (evs : List Event) (n : Nat) :
    (io.afterEvents l evs n).latch = l := rfl
@[simp] theorem Io.afterEvents_log (io : Io) (l : Latch) (evs : List Event) (n : Nat) :
    (io.afterEvents l evs n).log = io.log ++ evs.map Output.event := rfl
@[simp] theorem Io.afterEvents_drawn (io : Io) (l : Latch) (evs : List Event) (n : Nat) :
    (io.afterEvents l evs n).drawn = io.drawn + n := rfl
@[simp] theorem Io.afterEvents_transport (io : Io) (l : Latch) (evs : List Event) (n : Nat) :
    (io.afterEvents l evs n).transport = io.transport.drop n := rfl

/-- After n answers the k-th next is the (n + k)-th. -/
@[simp] theorem Io.replyAt_afterEvents (io : Io) (l : Latch) (evs : List Event) (n k : Nat) :
    (io.afterEvents l evs n).replyAt k = io.replyAt (n + k) := by
  simp [Io.replyAt, Io.afterEvents, Nat.add_assoc]

/-- Two runs of events in a row. -/
@[simp] theorem Io.afterEvents_afterEvents (io : Io) (l l' : Latch) (evs evs' : List Event) (n n' : Nat) :
    (io.afterEvents l evs n).afterEvents l' evs' n' = io.afterEvents l' (evs ++ evs') (n + n') := by
  simp [Io.afterEvents, Nat.add_assoc]

theorem Io.transportOk_iff (io : Io) (n : Nat) : io.transportOk n ↔ ∀ k, k < n → (io.replyAt k).fails = false := by
  simp [Io.transportOk]

theorem ok_mono {io : Io} {n m : Nat} (h : io.transportOk n) (hm : m ≤ n) : io.transportOk m := by
  rw [Io.transportOk_iff] at *
  exact fun k hk => h k (Nat.lt_of_lt_of_le hk hm)

/-- The answers left after n of n + m. -/
theorem ok_rest {io : Io} (n m : Nat) (h : io.transportOk (n + m)) (l : Latch) (evs : List Event) :
    (io.afterEvents l evs n).transportOk m := by
  rw [Io.transportOk_iff] at *
  intro k hk
  rw [Io.replyAt_afterEvents]
  exact h _ (by omega)

theorem ok_first {io : Io} {n : Nat} (h : io.transportOk (n + 1)) : io.reply.fails = false :=
  (Io.transportOk_iff io (n + 1)).mp h 0 (by omega)

/-! ### Primitives, when the transport does not fail -/

theorem Io.record_eq (io : Io) (e : Event) : io.record e = io.afterEvents io.latch [e] 0 := by
  simp [Io.record, Io.afterEvents]

theorem Io.takeReply_record_eq (io : Io) (l : Latch) (e : Event) :
    (io.takeReply.setLatch l).record e = io.afterEvents l [e] 1 := by
  simp [Io.record, Io.takeReply, Io.setLatch, Io.afterEvents]

theorem Io.takeReply_record_eq' (io : Io) (e : Event) : io.takeReply.record e = io.afterEvents io.latch [e] 1 := by
  simp [Io.record, Io.takeReply, Io.afterEvents]

@[simp] theorem andThen_ok {α β : Type} (a : α) (io : Io) (f : α → Io → Xfer β) : (Xfer.ok a io).andThen f = f a io := rfl
@[simp] theorem andThen_failed {α β : Type} (io : Io) (f : α → Io → Xfer β) :
    (Xfer.failed io : Xfer α).andThen f = .failed io := rfl
@[simp] theorem run_andThen_ok {α β : Type} (a : α) (d : DriverState) (io : Io) (f : α → DriverState → Io → Run β) :
    (Run.ok a d io).andThen f = f a d io := rfl
@[simp] theorem run_andThen_raised {α β : Type} (d : DriverState) (io : Io) (f : α → DriverState → Io → Run β) :
    (Run.raised d io : Run α).andThen f = .raised d io := rfl

theorem delay_eq (ns : BitVec 32) (io : Io) : delay ns io = .ok () (io.afterDelay ns) := by
  simp [delay, Io.record_eq, Io.afterDelay]

theorem writeLcdBit_ok {cfg : Config} {io : Io} (i : BitVec 3) (b : Bool) (h : io.transportOk 1) :
    writeLcdBit cfg i b io = .ok () (io.afterBit cfg i b) := by
  simp [writeLcdBit, ok_first h, Io.takeReply_record_eq, Io.afterBit]

theorem writeLcdPort_ok {cfg : Config} {io : Io} (v : Byte) (h : io.transportOk 1) :
    writeLcdPort cfg v io = .ok () (io.afterEvents (Latch.ofByte v) [.wr cfg.lcdPortReg v .ok] 1) := by
  simp [writeLcdPort, ok_first h, Io.takeReply_record_eq]

theorem readLcdPort_ok {cfg : Config} {io : Io} (h : io.transportOk 1) :
    readLcdPort cfg io = .ok (io.byteSnapshot cfg)
      (io.afterEvents io.latch [.rd cfg.lcdPortReg (some (io.byteSnapshot cfg))] 1) := by
  simp [readLcdPort, ok_first h, Io.takeReply_record_eq', Io.byteSnapshot]
  exact ⟨rfl, rfl⟩

theorem readSwitchPort_ok {cfg : Config} {io : Io} (h : io.transportOk 1) :
    readSwitchPort cfg io = .ok (io.replyAt 0).byte
      (io.afterEvents io.latch [.rd cfg.switchPortReg (some (io.replyAt 0).byte)] 1) := by
  simp [readSwitchPort, ok_first h, Io.takeReply_record_eq']
  exact ⟨rfl, rfl⟩

/-! ### Sequences, when the transport does not fail -/

theorem pulseEnable_ok {cfg : Config} {io : Io} (h : io.transportOk 2) :
    pulseEnable cfg io = .ok () (io.afterEvents (io.latch.setCell 4 (some false)) (pulseTrace cfg) 2) := by
  have h1 : io.transportOk 1 := ok_mono h (by omega)
  have h2 := ok_rest 1 1 h
  simp [pulseEnable, writeLcdBit_ok, h1, h2, delay_eq, Io.afterBit, Io.afterDelay, pulseTrace, pinE]

theorem beat_ok {cfg : Config} {io : Io} (v : Byte) (h : io.transportOk 3) :
    beat cfg v io = .ok () (io.afterBeat cfg v) := by
  have h1 : io.transportOk 1 := ok_mono h (by omega)
  have h2 := ok_rest 1 2 h
  simp [beat, writeLcdPort_ok, h1, h2, pulseEnable_ok, Io.afterBeat, beatTrace, latchAfterBeat]

theorem nibbleWrite_high (s p : Byte) : nibbleWrite s (highNibble p) = firstWrite s p := by
  unfold nibbleWrite highNibble firstWrite
  congr 1
  ext i hi
  simp [BitVec.getElem_setWidth, BitVec.getLsbD_extractLsb', BitVec.getElem_ushiftRight]
  intro h
  have : p.getLsbD (4 + i) = true → 4 + i < 8 := BitVec.lt_of_getLsbD
  have := this h
  omega

theorem nibbleWrite_low (s p : Byte) : nibbleWrite s (lowNibble p) = secondWrite s p := by
  unfold nibbleWrite lowNibble secondWrite
  congr 1
  revert p
  decide

theorem sendByte_ok {cfg : Config} {io : Io} (p : Byte) (h : io.transportOk 7) :
    sendByte cfg p io = .ok () (io.afterByte cfg p) := by
  have h1 : io.transportOk 1 := ok_mono h (by omega)
  have h2 := ok_rest 1 3 (ok_mono (m := 4) h (by omega))
  have h3 := ok_rest 4 3 h
  simp [sendByte, readLcdPort_ok, h1, h2, h3, beat_ok, nibbleWrite_high, nibbleWrite_low, Io.afterBeat, Io.afterByte,
    byteTrace]

theorem transfer_ok {cfg : Config} {io : Io} (rs : Bool) (p : Byte) (h : io.transportOk 8) :
    transfer cfg rs p io = .ok () (io.afterTransfer cfg rs p) := by
  have h1 : io.transportOk 1 := ok_mono h (by omega)
  have h2 := ok_rest 1 7 h
  simp [transfer, writeLcdBit_ok, h1, h2, sendByte_ok, delay_eq, Io.afterBit, Io.afterByte, Io.afterDelay,
    Io.afterTransfer, transferTrace, Io.byteSnapshot, Io.transferSnapshot, pinRs]

theorem sendLongCommand_ok {cfg : Config} {io : Io} (c : Byte) (h : io.transportOk 8) :
    sendLongCommand cfg c io = .ok () ((io.afterTransfer cfg false c).afterDelay cfg.tClear) := by
  simp [sendLongCommand, sendCommand, transfer_ok, h, delay_eq]

/-- The answers left after a transfer. -/
theorem ok_afterTransfer {io : Io} {m : Nat} (h : io.transportOk (8 + m)) (cfg : Config) (rs : Bool) (p : Byte) :
    (io.afterTransfer cfg rs p).transportOk m := ok_rest 8 m h _ _

theorem sendDataList_ok {cfg : Config} (bs : List Byte) {io : Io} (h : io.transportOk (8 * bs.length)) :
    sendDataList cfg bs io = .ok () (io.afterTransfers cfg (bs.map fun b => (true, b))) := by
  induction bs generalizing io with
  | nil => rfl
  | cons b rest ih =>
    have h8 : io.transportOk (8 + 8 * rest.length) := ok_mono h (by simp; omega)
    simp [sendDataList, sendData, transfer_ok true b (ok_mono h8 (by omega)), ih (ok_afterTransfer h8 cfg true b),
      Io.afterTransfers]

theorem initNibbles_ok {cfg : Config} {io : Io} (h : io.transportOk 12) :
    initNibbles cfg io = .ok () (io.afterInitNibbles cfg) := by
  have h1 : io.transportOk 3 := ok_mono h (by omega)
  have h2 := ok_rest 3 3 (ok_mono (m := 6) h (by omega))
  have h3 := ok_rest 6 3 (ok_mono (m := 9) h (by omega))
  have h4 := ok_rest 9 3 h
  have h0 := fun l evs => ok_rest 0 3 h1 l evs
  simp [initNibbles, delay_eq, beat_ok, Io.afterDelay, Io.afterBeat, h0, h2, h3, h4, Io.afterInitNibbles,
    force8BitNibble, switch4BitNibble]

end Sys2Proof.Machine
end

