-- ==== Sys2Proof/Laws/Session.lean ====
section
/-! SUPPORT. What a request can do at all: the checks, a completed body, a body that raised (60_exceptions R252). -/

namespace Sys2Proof.Machine

/-- Everything a request that needs a session can answer: always a next state, one of these four. -/
theorem request_cases {domain : Bool} {body : Config → DriverState → Io → Run Byte} {s t : State}
    (h : request domain body s = .next t) :
    (s.mode = .closed ∧ t = s.refusedWith .notOpen) ∨
    ∃ d hd, s.mode = .opened d hd ∧
      ((domain = false ∧ t = s.refusedWith .illegalRequest) ∨
       (domain = true ∧ ∃ v d' io', body s.cfg d s.io = .ok v d' io' ∧ t = s.ended d' hd io' v) ∨
       (domain = true ∧ ∃ d' io', body s.cfg d s.io = .raised d' io' ∧
          t = { s with mode := .opened d' hd }.answered io' .transportIoFailure)) := by
  simp only [request, State.inSession, Host.Outcome.next.injEq] at h
  subst h
  cases hm : s.mode with
  | closed => exact .inl ⟨rfl, rfl⟩
  | opened d hd =>
    refine .inr ⟨d, hd, rfl, ?_⟩
    cases domain with
    | false => exact .inl ⟨rfl, rfl⟩
    | true =>
      cases hb : body s.cfg d s.io with
      | ok v d' io' => exact .inr (.inl ⟨rfl, v, d', io', rfl, by simp [hb, State.afterRun, State.ended, State.respond]⟩)
      | raised d' io' =>
        exact .inr (.inr ⟨rfl, d', io', rfl, by simp [hb, State.afterRun, State.answered, State.respond]⟩)

theorem request_closed {domain : Bool} {body : Config → DriverState → Io → Run Byte} {s : State}
    (h : s.mode = .closed) : request domain body s = .next (s.refusedWith .notOpen) := by
  simp [request, State.inSession, h, State.refusedWith, State.respond]

theorem request_illegal {body : Config → DriverState → Io → Run Byte} {s : State} {d : DriverState} {hd : Handle}
    (h : s.mode = .opened d hd) : request false body s = .next (s.refusedWith .illegalRequest) := by
  simp [request, State.inSession, h, State.refusedWith, State.respond]

theorem request_ok {body : Config → DriverState → Io → Run Byte} {s : State} {d d' : DriverState} {hd : Handle}
    {io : Io} {v : Byte} (h : s.mode = .opened d hd) (hb : body s.cfg d s.io = .ok v d' io) :
    request true body s = .next (s.ended d' hd io v) := by
  simp [request, State.inSession, h, hb, State.afterRun, State.ended, State.respond]

theorem request_raised {body : Config → DriverState → Io → Run Byte} {s : State} {d d' : DriverState} {hd : Handle}
    {io : Io} (h : s.mode = .opened d hd) (hb : body s.cfg d s.io = .raised d' io) :
    request true body s = .next ({ s with mode := .opened d' hd }.answered io .transportIoFailure) := by
  simp [request, State.inSession, h, hb, State.afterRun, State.answered, State.respond]

/-- A sequence that completed, in a run. -/
theorem emit_ok {α : Type} {x : Io → Xfer α} {d : DriverState} {io io' : Io} {a : α} (h : x io = .ok a io') :
    emit x d io = .ok a d io' := by simp [emit, h]

theorem emit_failed {α : Type} {x : Io → Xfer α} {d : DriverState} {io io' : Io} (h : x io = .failed io') :
    emit x d io = .raised d io' := by simp [emit, h]

theorem emitOnly_ok {x : Config → Io → Xfer Unit} {cfg : Config} {d : DriverState} {io io' : Io}
    (h : x cfg io = .ok () io') : emitOnly x cfg d io = .ok 0x00 d io' := by simp [emitOnly, emit, h]

theorem emitOnly_failed {x : Config → Io → Xfer Unit} {cfg : Config} {d : DriverState} {io io' : Io}
    (h : x cfg io = .failed io') : emitOnly x cfg d io = .raised d io' := by simp [emitOnly, emit, h]

/-- A run of events only: the driver registers are the ones it began with. -/
theorem emitOnly_keeps (x : Config → Io → Xfer Unit) (cfg : Config) (d : DriverState) (io : Io) :
    (∃ io', emitOnly x cfg d io = .ok 0x00 d io') ∨ ∃ io', emitOnly x cfg d io = .raised d io' := by
  cases h : x cfg io with
  | ok a io' => exact .inl ⟨io', emitOnly_ok h⟩
  | failed io' => exact .inr ⟨io', emitOnly_failed h⟩

end Sys2Proof.Machine
end

