-- ==== Sys2Proof/Laws/Sound.lean ====
section
/-! SUPPORT. Everything a sequence of events can do, whether the transport fails or not: it appends its events to the record, uses
one answer for each transport event, leaves the latch its events leave, and fails exactly at a failing event, its last (00_scope R16). The predicate composes, so that a
fact about all requests is proved from one lemma per operation. -/

namespace Sys2Proof.Machine

/-- io' is io with these events appended and their answers used. -/
structure Io.Added (io io' : Io) (evs : List Event) : Prop where
  log : io'.log = io.log ++ evs.map Output.event
  transport : io'.transport = io.transport.drop (transportCount evs)
  drawn : io'.drawn = io.drawn + transportCount evs
  latch : io'.latch = latchAfter io.latch evs

theorem Io.Added.nil (io : Io) : io.Added io [] := ⟨by simp, by simp [transportCount], by simp [transportCount], rfl⟩

theorem Io.Added.trans {a b c : Io} {e e' : List Event} (h : a.Added b e) (h' : b.Added c e') : a.Added c (e ++ e') :=
  ⟨by simp [h.log, h'.log], by simp [h.transport, h'.transport, transportCount],
    by simp [h.drawn, h'.drawn, transportCount]; omega,
    by simp [h.latch, h'.latch]⟩

/-- Events without a failure, each with P. -/
def Calm (P : Event → Prop) (evs : List Event) : Prop := ∀ e ∈ evs, e.fails = false ∧ P e

theorem Calm.nil (P : Event → Prop) : Calm P [] := by simp [Calm]
theorem Calm.singleton {P : Event → Prop} {e : Event} (h : e.fails = false) (hP : P e) : Calm P [e] := by
  intro e' he
  rw [List.mem_singleton.mp he]
  exact ⟨h, hP⟩
theorem Calm.append {P : Event → Prop} {a b : List Event} (ha : Calm P a) (hb : Calm P b) : Calm P (a ++ b) := by
  intro e he
  rcases List.mem_append.mp he with h | h
  exacts [ha e h, hb e h]

/-- What a sequence added, completed or failed: when failed, its last event failed with an I/O failure and no other did. -/
def Xfer.AddedTo {α : Type} (P : Event → Prop) (io : Io) : Xfer α → Prop
  | .ok _ io' => ∃ evs, io.Added io' evs ∧ Calm P evs
  | .failed io' => ∃ evs e, io.Added io' (evs ++ [e]) ∧ Calm P evs ∧ e.fails = true ∧
      e.failureStatus = .transportIoFailure ∧ P e

/-- A sequence is sound when that is all it can do, from every interface. -/
def Sound {α : Type} (P : Event → Prop) (x : Io → Xfer α) : Prop := ∀ io, (x io).AddedTo P io

theorem Sound.andThen {α β : Type} {P : Event → Prop} {x : Io → Xfer α} {f : α → Io → Xfer β} (hx : Sound P x)
    (hf : ∀ a, Sound P (f a)) : Sound P fun io => (x io).andThen f := by
  intro io
  have h := hx io
  show ((x io).andThen f).AddedTo P io
  cases hr : x io with
  | failed io' => rw [hr] at h; exact h
  | ok a io' =>
    rw [hr] at h
    obtain ⟨evs, hadd, hcalm⟩ := h
    have h2 := hf a io'
    show (f a io').AddedTo P io
    cases hr2 : f a io' with
    | ok b io'' =>
      rw [hr2] at h2
      obtain ⟨evs', hadd', hcalm'⟩ := h2
      exact ⟨evs ++ evs', hadd.trans hadd', hcalm.append hcalm'⟩
    | failed io'' =>
      rw [hr2] at h2
      obtain ⟨evs', e, hadd', hcalm', he⟩ := h2
      exact ⟨evs ++ evs', e, by simpa using hadd.trans hadd', hcalm.append hcalm', he⟩

/-- A sequence that emits nothing. -/
theorem Sound.pure {α : Type} {P : Event → Prop} (a : α) : Sound P fun io => Xfer.ok a io :=
  fun io => ⟨[], .nil io, .nil P⟩

theorem added_one {io : Io} {l : Latch} {e : Event} (he : e.isTransport = true) (hl : l = e.latchAfter io.latch) :
    io.Added (io.afterEvents l [e] 1) [e] :=
  ⟨rfl, by simp [transportCount, he], by simp [transportCount, he], hl⟩

theorem delay_sound (P : Event → Prop) (ns : BitVec 32) (h : P (.delay ns)) : Sound P (delay ns) := fun io =>
  ⟨[.delay ns], ⟨rfl, by simp [transportCount, Event.isTransport], by simp [transportCount, Event.isTransport], rfl⟩,
    by simp [Calm, Event.fails, h]⟩

theorem writeLcdBit_sound (P : Event → Prop) (cfg : Config) (i : BitVec 3) (b : Bool)
    (h : ∀ o, P (.wb cfg.lcdPortReg i b o)) : Sound P (writeLcdBit cfg i b) := by
  intro io
  by_cases hf : io.reply.fails = true
  · simp only [writeLcdBit, hf, if_true, Io.takeReply_record_eq]
    exact ⟨[], _, added_one rfl rfl, .nil P, rfl, rfl, h _⟩
  · simp only [writeLcdBit, hf, Io.takeReply_record_eq]
    exact ⟨_, added_one rfl rfl, by simp [Calm, Event.fails, h]⟩

theorem writeLcdPort_sound (P : Event → Prop) (cfg : Config) (v : Byte)
    (h : ∀ o, P (.wr cfg.lcdPortReg v o)) : Sound P (writeLcdPort cfg v) := by
  intro io
  by_cases hf : io.reply.fails = true
  · simp only [writeLcdPort, hf, if_true, Io.takeReply_record_eq]
    exact ⟨[], _, added_one rfl rfl, .nil P, rfl, rfl, h _⟩
  · simp only [writeLcdPort, hf, Io.takeReply_record_eq]
    exact ⟨_, added_one rfl rfl, by simp [Calm, Event.fails, h]⟩

theorem readLcdPort_sound (P : Event → Prop) (cfg : Config) (h : ∀ o, P (.rd cfg.lcdPortReg o)) :
    Sound P (readLcdPort cfg) := by
  intro io
  by_cases hf : io.reply.fails = true
  · simp only [readLcdPort, hf, if_true, Io.takeReply_record_eq']
    exact ⟨[], _, added_one rfl rfl, .nil P, rfl, rfl, h _⟩
  · simp only [readLcdPort, hf, Io.takeReply_record_eq']
    exact ⟨_, added_one rfl rfl, by simp [Calm, Event.fails, h]⟩

theorem readSwitchPort_sound (P : Event → Prop) (cfg : Config) (h : ∀ o, P (.rd cfg.switchPortReg o)) :
    Sound P (readSwitchPort cfg) := by
  intro io
  by_cases hf : io.reply.fails = true
  · simp only [readSwitchPort, hf, if_true, Io.takeReply_record_eq']
    exact ⟨[], _, added_one rfl rfl, .nil P, rfl, rfl, h _⟩
  · simp only [readSwitchPort, hf, Io.takeReply_record_eq']
    exact ⟨_, added_one rfl rfl, by simp [Calm, Event.fails, h]⟩

/-- The events of the transfer sequences: delays, and accesses of the LCD port. -/
def AtLcdPort (cfg : Config) : Event → Prop
  | .rd reg _ | .wr reg _ _ | .wb reg _ _ _ => reg = cfg.lcdPortReg
  | .delay _ => True
  | .tOpen _ _ _ | .tClose _ => False

theorem pulseEnable_sound (cfg : Config) : Sound (AtLcdPort cfg) (pulseEnable cfg) :=
  (writeLcdBit_sound _ cfg _ _ fun _ => rfl).andThen fun _ => (delay_sound _ _ trivial).andThen fun _ =>
    (writeLcdBit_sound _ cfg _ _ fun _ => rfl).andThen fun _ => delay_sound _ _ trivial

theorem beat_sound (cfg : Config) (v : Byte) : Sound (AtLcdPort cfg) (beat cfg v) :=
  (writeLcdPort_sound _ cfg v fun _ => rfl).andThen fun _ => pulseEnable_sound cfg

theorem sendByte_sound (cfg : Config) (b : Byte) : Sound (AtLcdPort cfg) (sendByte cfg b) :=
  (readLcdPort_sound _ cfg fun _ => rfl).andThen fun _ => (beat_sound cfg _).andThen fun _ => beat_sound cfg _

theorem transfer_sound (cfg : Config) (rs : Bool) (p : Byte) : Sound (AtLcdPort cfg) (transfer cfg rs p) :=
  (writeLcdBit_sound _ cfg _ _ fun _ => rfl).andThen fun _ => (sendByte_sound cfg p).andThen fun _ =>
    delay_sound _ _ trivial

theorem sendLongCommand_sound (cfg : Config) (c : Byte) : Sound (AtLcdPort cfg) (sendLongCommand cfg c) :=
  (transfer_sound cfg false c).andThen fun _ => delay_sound _ _ trivial

theorem sendDataList_sound (cfg : Config) (bs : List Byte) : Sound (AtLcdPort cfg) (sendDataList cfg bs) := by
  induction bs with
  | nil => exact Sound.pure ()
  | cons b rest ih => exact (transfer_sound cfg true b).andThen fun _ => ih

theorem initNibbles_sound (cfg : Config) : Sound (AtLcdPort cfg) (initNibbles cfg) :=
  (delay_sound _ _ trivial).andThen fun _ => (beat_sound cfg _).andThen fun _ =>
    (delay_sound _ _ trivial).andThen fun _ => (beat_sound cfg _).andThen fun _ =>
      (delay_sound _ _ trivial).andThen fun _ => (beat_sound cfg _).andThen fun _ => beat_sound cfg _

/-! ### Runs: events and driver registers -/

/-- What a run added, completed or raised. -/
def Run.AddedTo {α : Type} (P : Event → Prop) (io : Io) : Run α → Prop
  | .ok _ _ io' => ∃ evs, io.Added io' evs ∧ Calm P evs
  | .raised _ io' => ∃ evs e, io.Added io' (evs ++ [e]) ∧ Calm P evs ∧ e.fails = true ∧
      e.failureStatus = .transportIoFailure ∧ P e

/-- A run is sound when that is all it can do, from all registers and every interface. -/
def RunSound {α : Type} (P : Event → Prop) (x : DriverState → Io → Run α) : Prop := ∀ d io, (x d io).AddedTo P io

theorem RunSound.pure {α : Type} {P : Event → Prop} (f : DriverState → α) (g : DriverState → DriverState) :
    RunSound P fun d io => Run.ok (f d) (g d) io := fun _ io => ⟨[], .nil io, .nil P⟩

theorem emit_sound {α : Type} {P : Event → Prop} {x : Io → Xfer α} (hx : Sound P x) : RunSound P (emit x) := by
  intro d io
  have h := hx io
  cases hr : x io <;> (rw [hr] at h; simp only [emit, hr]; exact h)

theorem RunSound.andThen {α β : Type} {P : Event → Prop} {x : DriverState → Io → Run α}
    {f : α → DriverState → Io → Run β} (hx : RunSound P x) (hf : ∀ a, RunSound P (f a)) :
    RunSound P fun d io => (x d io).andThen f := by
  intro d io
  have h := hx d io
  show ((x d io).andThen f).AddedTo P io
  cases hr : x d io with
  | raised d' io' => rw [hr] at h; exact h
  | ok a d' io' =>
    rw [hr] at h
    obtain ⟨evs, hadd, hcalm⟩ := h
    have h2 := hf a d' io'
    show (f a d' io').AddedTo P io
    cases hr2 : f a d' io' with
    | ok b d'' io'' =>
      rw [hr2] at h2
      obtain ⟨evs', hadd', hcalm'⟩ := h2
      exact ⟨evs ++ evs', hadd.trans hadd', hcalm.append hcalm'⟩
    | raised d'' io'' =>
      rw [hr2] at h2
      obtain ⟨evs', e, hadd', hcalm', he⟩ := h2
      exact ⟨evs ++ evs', e, by simpa using hadd.trans hadd', hcalm.append hcalm', he⟩

/-- The registers may be changed before a sound run. -/
theorem RunSound.comap {α : Type} {P : Event → Prop} {x : DriverState → Io → Run α} (hx : RunSound P x)
    (g : DriverState → DriverState) : RunSound P fun d io => x (g d) io := fun d io => hx (g d) io

theorem emitOnly_sound {P : Event → Prop} {x : Config → Io → Xfer Unit} {cfg : Config} (hx : Sound P (x cfg)) :
    RunSound P (emitOnly x cfg) :=
  (emit_sound hx).andThen fun _ => RunSound.pure (fun _ => 0x00) id

end Sys2Proof.Machine
end

