-- ==== Sys2Proof/Laws/Exec.lean ====
section
/-! SUPPORT. Everything exec can answer, said once: always a next state, whose record is the old one with the request's events and one
response that fits them. Whole-machine statements follow from it. -/

namespace Sys2Proof.Machine

/-- The events an instruction may emit: the switch port's reads for the switch requests, OPEN and CLOSE for the lifecycle, accesses
of the LCD port and delays for every other (20_memory R38, R39, R48). -/
def MayEmit (cfg : Config) (i : Instr) (e : Event) : Prop :=
  match i with
  | .openSession _ _ => ∃ b s o, e = .tOpen b s o
  | .closeSession => ∃ o, e = .tClose o
  | .readSwitches => ∃ o, e = .rd cfg.switchPortReg o
  | .readSwitch _ => ∃ o, e = .rd cfg.switchPortReg o
  | _ => AtLcdPort cfg e

/-- How the events and the response of a request fit together (R16, R85, R250). -/
inductive Fits (P : Event → Prop) : List Event → Response → Prop where
  /-- Completed: no event failed. -/
  | completed (evs : List Event) (v : Byte) : Calm P evs → Fits P evs ⟨.ok, v⟩
  /-- Raised at its last event. -/
  | raised (evs : List Event) (e : Event) : Calm P evs → e.fails = true → P e → Fits P (evs ++ [e]) ⟨e.failureStatus, 0x00⟩
  /-- Ended by a check, with no event. -/
  | checked (st : Status) : st ≠ .ok → st ≠ .transportOpenFailure → st ≠ .transportIoFailure → Fits P [] ⟨st, 0x00⟩

/-- A request has taken s to t. -/
structure Ended (P : Event → Prop) (s t : State) (evs : List Event) (r : Response) : Prop where
  fits : Fits P evs r
  log : t.io.log = s.io.log ++ evs.map Output.event ++ [.response r]
  transport : t.io.transport = s.io.transport.drop (transportCount evs)
  drawn : t.io.drawn = s.io.drawn + transportCount evs
  latch : t.io.latch = latchAfter s.io.latch evs
  cfg : t.cfg = s.cfg
  requests : t.requests = s.requests

/-- A check that ends a request, as a whole request. -/
theorem ended_refused {P : Event → Prop} {s : State} {st : Status} (h1 : st ≠ .ok) (h2 : st ≠ .transportOpenFailure)
    (h3 : st ≠ .transportIoFailure) : Ended P s (s.refusedWith st) [] ⟨st, 0x00⟩ :=
  ⟨.checked st h1 h2 h3, by simp [State.refusedWith], by simp [State.refusedWith, transportCount],
    by simp [State.refusedWith, transportCount], rfl, rfl, rfl⟩

/-- A request with a sound body always ends so. -/
theorem request_ended {P : Event → Prop} {domain : Bool} {body : Config → DriverState → Io → Run Byte} (s : State)
    (hb : domain = true → RunSound P (body s.cfg)) :
    ∃ t evs r, request domain body s = .next t ∧ Ended P s t evs r := by
  obtain ⟨t, ht⟩ : ∃ t, request domain body s = .next t := ⟨_, rfl⟩
  rcases request_cases ht with ⟨-, he⟩ | ⟨d, hd, hm, ⟨-, he⟩ | ⟨hdom, v, d', io', hrun, he⟩ | ⟨hdom, d', io', hrun, he⟩⟩
  · exact ⟨_, _, _, ht, he ▸ ended_refused (by decide) (by decide) (by decide)⟩
  · exact ⟨_, _, _, ht, he ▸ ended_refused (by decide) (by decide) (by decide)⟩
  · have h := hb hdom d s.io
    rw [hrun] at h
    obtain ⟨evs, hadd, hcalm⟩ := h
    refine ⟨_, evs, ⟨.ok, v⟩, ht, he ▸ ⟨.completed evs v hcalm, ?_, hadd.transport, hadd.drawn, hadd.latch, rfl, rfl⟩⟩
    simp [State.ended, hadd.log]
  · have h := hb hdom d s.io
    rw [hrun] at h
    obtain ⟨evs, e, hadd, hcalm, hf, hst, hP⟩ := h
    refine ⟨_, evs ++ [e], ⟨.transportIoFailure, 0x00⟩, ht,
      he ▸ ⟨hst ▸ .raised evs e hcalm hf hP, ?_, hadd.transport, hadd.drawn, hadd.latch, rfl, rfl⟩⟩
    simp [State.answered, hadd.log]

/-! ### The bodies are sound -/

section
variable (cfg : Config)

theorem moveCursor_sound (a : Byte) : RunSound (AtLcdPort cfg) (moveCursor cfg a) :=
  (emit_sound (transfer_sound cfg false _)).comap _

theorem returnCursor_sound {P : Event → Prop} {x : DriverState → Io → Run Unit} (h : RunSound P x) :
    RunSound P fun d io => returnCursor (x d io) :=
  h.andThen fun _ => RunSound.pure (fun d => d.cursorAddress) id

theorem doClear_sound : RunSound (AtLcdPort cfg) (doClear cfg) :=
  (emit_sound (sendLongCommand_sound cfg _)).andThen fun _ => RunSound.pure (fun _ => ()) _

theorem initBody_sound : RunSound (AtLcdPort cfg) (initBody cfg) :=
  (emit_sound (initNibbles_sound cfg)).andThen fun _ =>
    RunSound.andThen (x := initCommands cfg)
      (((emit_sound (transfer_sound cfg false _)).comap _).andThen fun _ =>
        ((emit_sound (transfer_sound cfg false _)).comap _).andThen fun _ =>
          (doClear_sound cfg).andThen fun _ =>
            ((emit_sound (transfer_sound cfg false _)).comap _).andThen fun _ =>
              (emit_sound (transfer_sound cfg false _)).comap _)
      fun _ => RunSound.pure (fun _ => 0x00) id

theorem putByte_sound (b : Byte) : RunSound (AtLcdPort cfg) (putByte cfg b) :=
  (emit_sound (transfer_sound cfg true b)).andThen fun _ => RunSound.pure (fun _ => ()) _

theorem writeByte_sound (b : Byte) : RunSound (AtLcdPort cfg) (writeByte cfg b) := by
  intro d io
  unfold writeByte
  split
  · exact moveCursor_sound cfg _ d io
  · exact putByte_sound cfg b d io

theorem writeBytes_sound (msg : List Byte) : RunSound (AtLcdPort cfg) (writeBytes cfg msg) := by
  induction msg with
  | nil => exact RunSound.pure (fun _ => ()) id
  | cons b rest ih => exact (writeByte_sound cfg b).andThen fun _ => ih

theorem resync_sound : RunSound (AtLcdPort cfg) (resync cfg) :=
  fun d io => emit_sound (transfer_sound cfg false (ddramPayload d.cursorAddress)) d io

theorem setFlag_sound (g : Group) (mask : Byte) (enabled : Bool) :
    RunSound (AtLcdPort cfg) (setFlag g mask enabled cfg) := fun d io =>
  ((emit_sound (transfer_sound cfg false (g.payload (updateMask enabled mask (d.flags g))))).comap
      fun d' => d'.withFlags g (updateMask enabled mask (d.flags g))).andThen
    (fun _ => RunSound.pure (fun _ => (0x00 : Byte)) id) d io

theorem setFlagOperand_sound {group mask : Byte} (enabled : Byte) (h : setFlagDomain group mask = true) :
    RunSound (AtLcdPort cfg) (setFlagOperand group mask enabled cfg) := by
  intro d io
  unfold setFlagOperand
  cases hg : groupOperand group with
  | some g => exact setFlag_sound cfg g mask _ d io
  | none => simp [setFlagDomain, hg] at h

end

/-! ### Every instruction -/

/-- OPEN, in either mode and whether TOpen fails or not. -/
theorem execOpen_ended (busId selectId : Byte) (s : State) :
    ∃ t evs r, execOpen busId selectId s = .next t ∧ Ended (MayEmit s.cfg (.openSession busId selectId)) s t evs r := by
  cases hm : s.mode with
  | opened d h =>
    exact ⟨_, _, _, by simp only [execOpen, hm]; rfl, ended_refused (st := .illegalRequest) (by decide) (by decide) (by decide)⟩
  | closed =>
    by_cases hf : s.io.reply.fails = true
    · refine ⟨_, [.tOpen busId selectId none], ⟨.transportOpenFailure, 0x00⟩, by simp only [execOpen, hm]; rfl, ?_⟩
      simp only [State.openFrom, transportOpen, hf, if_true, State.raise_eq]
      exact ⟨.raised [] (.tOpen busId selectId none) (.nil _) rfl ⟨_, _, _, rfl⟩, by simp,
        by simp [transportCount, Event.isTransport], by simp [transportCount, Event.isTransport], rfl, rfl, rfl⟩
    · refine ⟨_, [.tOpen busId selectId (some s.io.reply.handle)], ⟨.ok, 0x00⟩, by simp only [execOpen, hm]; rfl, ?_⟩
      simp only [State.openFrom, transportOpen, hf, State.complete_eq]
      exact ⟨.completed _ _ (Calm.singleton rfl ⟨_, _, _, rfl⟩), by simp,
        by simp [transportCount, Event.isTransport], by simp [transportCount, Event.isTransport], rfl, rfl, rfl⟩

/-- CLOSE, in either mode and whether TClose fails or not. -/
theorem execClose_ended (s : State) :
    ∃ t evs r, execClose s = .next t ∧ Ended (MayEmit s.cfg .closeSession) s t evs r := by
  cases hm : s.mode with
  | closed =>
    exact ⟨_, _, _, by simp only [execClose, hm]; rfl, ended_refused (st := .notOpen) (by decide) (by decide) (by decide)⟩
  | opened d h =>
    by_cases hf : s.discardSession.io.reply.fails = true
    · refine ⟨_, [.tClose .failed], ⟨.transportIoFailure, 0x00⟩, by simp only [execClose, hm]; rfl, ?_⟩
      simp only [State.closeTransport, transportClose, hf, if_true, State.raise_eq]
      exact ⟨.raised [] (.tClose .failed) (.nil _) rfl ⟨_, rfl⟩, by simp [State.discardSession],
        by simp [transportCount, Event.isTransport, State.discardSession],
        by simp [transportCount, Event.isTransport, State.discardSession], rfl, rfl, rfl⟩
    · refine ⟨_, [.tClose .ok], ⟨.ok, 0x00⟩, by simp only [execClose, hm]; rfl, ?_⟩
      simp only [State.closeTransport, transportClose, hf, State.complete_eq]
      exact ⟨.completed _ _ (Calm.singleton rfl ⟨_, rfl⟩), by simp [State.discardSession],
        by simp [transportCount, Event.isTransport, State.discardSession],
        by simp [transportCount, Event.isTransport, State.discardSession], rfl, rfl, rfl⟩

/-- A placeholder. -/
theorem placeholder_ended (P : Event → Prop) (s : State) : ∃ t evs r, placeholder s = .next t ∧ Ended P s t evs r :=
  ⟨_, _, _, rfl, ended_refused (by decide) (by decide) (by decide)⟩

/-- Everything exec can answer. -/
theorem exec_ended (i : Instr) (s : State) :
    ∃ t evs r, exec i s = .next t ∧ Ended (MayEmit s.cfg i) s t evs r := by
  cases i with
  | openSession b se => exact execOpen_ended b se s
  | closeSession => exact execClose_ended s
  | moveLeft => exact placeholder_ended _ s
  | moveRight => exact placeholder_ended _ s
  | leftJustify => exact placeholder_ended _ s
  | rightJustify => exact placeholder_ended _ s
  | init => exact request_ended s fun _ => initBody_sound s.cfg
  | write msg =>
    exact request_ended s fun _ => returnCursor_sound ((resync_sound s.cfg).andThen fun _ => writeBytes_sound s.cfg msg)
  | setCursor c r => exact request_ended s fun _ => returnCursor_sound (moveCursor_sound s.cfg _)
  | setCursorAddress a => exact request_ended s fun _ => returnCursor_sound (moveCursor_sound s.cfg _)
  | getCursorAddress => exact request_ended s fun _ => returnCursor_sound (RunSound.pure (fun _ => ()) id)
  | clear => exact request_ended s fun _ => (doClear_sound s.cfg).andThen fun _ => RunSound.pure (fun _ => 0x00) id
  | home =>
    exact request_ended s fun _ =>
      (emit_sound (sendLongCommand_sound s.cfg _)).andThen fun _ => RunSound.pure (fun _ => 0x00) _
  | displayOn => exact request_ended s fun _ => setFlag_sound s.cfg _ _ _
  | displayOff => exact request_ended s fun _ => setFlag_sound s.cfg _ _ _
  | cursorOn => exact request_ended s fun _ => setFlag_sound s.cfg _ _ _
  | cursorOff => exact request_ended s fun _ => setFlag_sound s.cfg _ _ _
  | blinkOn => exact request_ended s fun _ => setFlag_sound s.cfg _ _ _
  | blinkOff => exact request_ended s fun _ => setFlag_sound s.cfg _ _ _
  | leftToRight => exact request_ended s fun _ => setFlag_sound s.cfg _ _ _
  | rightToLeft => exact request_ended s fun _ => setFlag_sound s.cfg _ _ _
  | autoscrollOn => exact request_ended s fun _ => setFlag_sound s.cfg _ _ _
  | autoscrollOff => exact request_ended s fun _ => setFlag_sound s.cfg _ _ _
  | setFlag g m e => exact request_ended s fun h => setFlagOperand_sound s.cfg e h
  | storeCustomBitmap slot rows =>
    exact request_ended s fun _ =>
      emitOnly_sound ((transfer_sound s.cfg false _).andThen fun _ => sendDataList_sound s.cfg rows)
  | writeCustomBitmap slot =>
    exact request_ended s fun _ => returnCursor_sound ((resync_sound s.cfg).andThen fun _ => putByte_sound s.cfg slot)
  | readSwitches => exact request_ended s fun _ => emit_sound (readSwitchPort_sound _ s.cfg fun _ => ⟨_, rfl⟩)
  | readSwitch n =>
    exact request_ended s fun _ =>
      (emit_sound (readSwitchPort_sound _ s.cfg fun _ => ⟨_, rfl⟩)).andThen fun v => RunSound.pure (fun _ => switchBit v n) id
  | backlightOn => exact request_ended s fun _ => emitOnly_sound (writeLcdBit_sound _ s.cfg _ _ fun _ => rfl)
  | backlightOff => exact request_ended s fun _ => emitOnly_sound (writeLcdBit_sound _ s.cfg _ _ fun _ => rfl)
  | setRs v => exact request_ended s fun _ => emitOnly_sound (writeLcdBit_sound _ s.cfg _ _ fun _ => rfl)
  | setRw v => exact request_ended s fun _ => emitOnly_sound (writeLcdBit_sound _ s.cfg _ _ fun _ => rfl)
  | setEnable v => exact request_ended s fun _ => emitOnly_sound (writeLcdBit_sound _ s.cfg _ _ fun _ => rfl)
  | setBacklight v => exact request_ended s fun _ => emitOnly_sound (writeLcdBit_sound _ s.cfg _ _ fun _ => rfl)
  | sendByte b => exact request_ended s fun _ => emitOnly_sound (sendByte_sound s.cfg b)
  | sendCommand c => exact request_ended s fun _ => emitOnly_sound (transfer_sound s.cfg false c)
  | sendData b => exact request_ended s fun _ => emitOnly_sound (transfer_sound s.cfg true b)
  | data b => exact request_ended s fun _ => emitOnly_sound (transfer_sound s.cfg true b)
  | clearDisplay => exact request_ended s fun _ => emitOnly_sound (sendLongCommand_sound s.cfg _)
  | returnHome x => exact request_ended s fun _ => emitOnly_sound (sendLongCommand_sound s.cfg _)
  | entryModeSet a b => exact request_ended s fun _ => emitOnly_sound (transfer_sound s.cfg false _)
  | displayControl a b c => exact request_ended s fun _ => emitOnly_sound (transfer_sound s.cfg false _)
  | cursorShift a b c => exact request_ended s fun _ => emitOnly_sound (transfer_sound s.cfg false _)
  | functionSet a b c d => exact request_ended s fun _ => emitOnly_sound (transfer_sound s.cfg false _)
  | setCgramAddr a b => exact request_ended s fun _ => emitOnly_sound (transfer_sound s.cfg false _)
  | setDdramAddr a => exact request_ended s fun _ => emitOnly_sound (transfer_sound s.cfg false _)
  | initNibble8Bit => exact request_ended s fun _ => emitOnly_sound (beat_sound s.cfg _)
  | initNibble4Bit => exact request_ended s fun _ => emitOnly_sound (beat_sound s.cfg _)

end Sys2Proof.Machine
end

