-- ==== Sys2Proof/Laws/Registers.lean ====
section
/-! SUPPORT. What a run can do to the driver registers: a relation between the registers before and after, kept by every way a run can
end, completed or raised (00_scope R17). It composes for every reflexive and transitive relation. -/

namespace Sys2Proof.Machine

/-- The registers d before the run are related to those it ends with. -/
def Run.Relates {α : Type} (R : DriverState → DriverState → Prop) (d : DriverState) : Run α → Prop
  | .ok _ d' _ => R d d'
  | .raised d' _ => R d d'

/-- A run changes the registers by R only. -/
def ChangesBy {α : Type} (R : DriverState → DriverState → Prop) (x : DriverState → Io → Run α) : Prop :=
  ∀ d io, (x d io).Relates R d

theorem emit_changesBy {α : Type} {R : DriverState → DriverState → Prop} (hR : ∀ d, R d d) (x : Io → Xfer α) :
    ChangesBy R (emit x) := by
  intro d io
  cases h : x io <;> simp [emit, h, Run.Relates, hR]

/-- Registers written, then events: the write stands however the events end. -/
theorem emit_after_write {α : Type} {R : DriverState → DriverState → Prop} (x : Io → Xfer α)
    (g : DriverState → DriverState) (hR : ∀ d, R d (g d)) : ChangesBy R fun d io => emit x (g d) io := by
  intro d io
  show (emit x (g d) io).Relates R d
  cases h : x io <;> simp [emit, h, Run.Relates, hR]

theorem ChangesBy.andThen {α β : Type} {R : DriverState → DriverState → Prop} (hT : ∀ a b c, R a b → R b c → R a c)
    {x : DriverState → Io → Run α} {f : α → DriverState → Io → Run β} (hx : ChangesBy R x)
    (hf : ∀ a, ChangesBy R (f a)) : ChangesBy R fun d io => (x d io).andThen f := by
  intro d io
  have h := hx d io
  show ((x d io).andThen f).Relates R d
  cases hr : x d io with
  | raised d' io' => rw [hr] at h; exact h
  | ok a d' io' =>
    rw [hr] at h
    have h2 := hf a d' io'
    show (f a d' io').Relates R d
    cases hr2 : f a d' io' <;> (rw [hr2] at h2; exact hT _ _ _ h h2)

theorem pure_changesBy {α : Type} {R : DriverState → DriverState → Prop} (f : DriverState → α)
    (g : DriverState → DriverState) (hR : ∀ d, R d (g d)) : ChangesBy R fun d io => Run.ok (f d) (g d) io :=
  fun d _ => hR d

/-- A request whose body changes the registers by R: the session it leaves. -/
theorem request_changesBy {R : DriverState → DriverState → Prop} (hR : ∀ d, R d d) {domain : Bool}
    {body : Config → DriverState → Io → Run Byte} {s t : State} {d : DriverState} {h : Handle}
    (hb : domain = true → ChangesBy R (body s.cfg)) (hm : s.mode = .opened d h) (he : request domain body s = .next t) :
    ∃ d', t.mode = .opened d' h ∧ R d d' := by
  rcases request_cases he with ⟨hc, -⟩ | ⟨d0, h0, hm0, hrest⟩
  · rw [hm] at hc; cases hc
  · rw [hm] at hm0
    cases hm0
    rcases hrest with ⟨-, ht⟩ | ⟨hdom, v, d', io', hrun, ht⟩ | ⟨hdom, d', io', hrun, ht⟩
    · exact ⟨d, by rw [ht]; exact hm, hR d⟩
    · have h2 := hb hdom d s.io
      rw [hrun] at h2
      exact ⟨d', by rw [ht]; rfl, h2⟩
    · have h2 := hb hdom d s.io
      rw [hrun] at h2
      exact ⟨d', by rw [ht]; rfl, h2⟩

end Sys2Proof.Machine
end

