-- ==== Sys2Proof/Laws/Bodies.lean ====
section
/-! SUPPORT. The shared bodies of the requests: each in one closed form where the transport does not fail, and the registers each leaves
whatever the transport does. -/

namespace Sys2Proof.Machine

/-! ### Completed -/

theorem emit_transfer_ok {cfg : Config} {rs : Bool} {p : Byte} {d : DriverState} {io : Io} (h : io.transportOk 8) :
    emit (transfer cfg rs p) d io = .ok () d (io.afterTransfer cfg rs p) := emit_ok (transfer_ok rs p h)

theorem emit_sendCommand_ok {cfg : Config} {p : Byte} {d : DriverState} {io : Io} (h : io.transportOk 8) :
    emit (sendCommand cfg p) d io = .ok () d (io.afterTransfer cfg false p) := emit_transfer_ok h

theorem moveCursor_ok {cfg : Config} {a : Byte} {d : DriverState} {io : Io} (h : io.transportOk 8) :
    moveCursor cfg a d io = .ok () { d with cursorAddress := a } (io.afterTransfer cfg false (0x80 ||| a)) :=
  emit_transfer_ok h

theorem resync_ok {cfg : Config} {d : DriverState} {io : Io} (h : io.transportOk 8) :
    resync cfg d io = .ok () d (io.afterTransfer cfg false (0x80 ||| d.cursorAddress)) := emit_transfer_ok h

theorem putByte_ok {cfg : Config} {b : Byte} {d : DriverState} {io : Io} (h : io.transportOk 8) :
    putByte cfg b d io = .ok () { d with cursorAddress := d.cursorAddress + 1 } (io.afterTransfer cfg true b) := by
  have h1 : emit (sendData cfg b) d io = .ok () d (io.afterTransfer cfg true b) := emit_transfer_ok h
  rw [putByte, h1, run_andThen_ok]

theorem doClear_ok {cfg : Config} {d : DriverState} {io : Io} (h : io.transportOk 8) :
    doClear cfg d io =
      .ok () { d with cursorAddress := 0x00 } ((io.afterTransfer cfg false 0x01).afterDelay cfg.tClear) := by
  rw [doClear, emit_ok (sendLongCommand_ok _ h), run_andThen_ok]; rfl

theorem setFlag_ok {cfg : Config} {g : Group} {mask v : Byte} {enabled : Bool} {d : DriverState} {io : Io}
    (h : io.transportOk 8) (hv : updateMask enabled mask (d.flags g) = v) :
    setFlag g mask enabled cfg d io = .ok 0x00 (d.withFlags g v) (io.afterTransfer cfg false (g.payload v)) := by
  subst hv
  rw [setFlag, emit_sendCommand_ok h, run_andThen_ok]

/-- The newline's target is 0x40, with SETCURSOR_WRAP or without (R182). -/
theorem cursorTarget_newline (cfg : Config) : cursorTarget cfg 0 1 = 0x40 := by
  unfold cursorTarget
  split <;> rfl

theorem writeByte_ok {cfg : Config} {b : Byte} {d : DriverState} {io : Io} (h : io.transportOk 8) :
    writeByte cfg b d io = .ok () { d with cursorAddress := cursorAfterByte d.cursorAddress b }
      (io.afterTransfer cfg (transferOfByte b).1 (transferOfByte b).2) := by
  by_cases hb : b = 0x0A
  · subst hb
    show moveCursor cfg (cursorTarget cfg 0 1) d io = _
    rw [cursorTarget_newline, moveCursor_ok h]; rfl
  · simp only [writeByte, newline, hb, if_false, putByte_ok h, cursorAfterByte, transferOfByte]

theorem writeBytes_ok {cfg : Config} (msg : List Byte) {d : DriverState} {io : Io} (h : io.transportOk (8 * msg.length)) :
    writeBytes cfg msg d io = .ok () { d with cursorAddress := cursorAfterMessage d.cursorAddress msg }
      (io.afterTransfers cfg (msg.map transferOfByte)) := by
  induction msg generalizing d io with
  | nil => rfl
  | cons b rest ih =>
    have h8 : io.transportOk (8 + 8 * rest.length) := ok_mono h (by simp; omega)
    rw [writeBytes, writeByte_ok (ok_mono h8 (by omega)), run_andThen_ok, ih (ok_afterTransfer h8 cfg _ _)]
    rfl

/-! ### The registers, whatever the transport does -/

/-- Every way a run can end leaves the registers d'. -/
def Run.Leaves {α : Type} (d' : DriverState) : Run α → Prop
  | .ok _ d _ => d = d'
  | .raised d _ => d = d'

theorem emit_leaves {α : Type} (x : Io → Xfer α) (d : DriverState) (io : Io) : (emit x d io).Leaves d := by
  cases h : x io <;> simp [emit, h, Run.Leaves]

theorem returnCursor_leaves {d' : DriverState} {r : Run Unit} (h : r.Leaves d') : (returnCursor r).Leaves d' := by
  cases r <;> exact h

theorem andThen_ok_leaves {α : Type} {d' : DriverState} {r : Run α} (v : Byte) (h : r.Leaves d') :
    (r.andThen fun _ d io => Run.ok v d io).Leaves d' := by
  cases r <;> exact h

/-- A request whose body leaves the registers d' leaves them, completed or not. -/
theorem request_leaves {body : Config → DriverState → Io → Run Byte} {s t : State} {d d' : DriverState} {h : Handle}
    (hm : s.mode = .opened d h) (hb : (body s.cfg d s.io).Leaves d') (he : request true body s = .next t) :
    t.mode = .opened d' h := by
  rcases request_cases he with ⟨hc, -⟩ | ⟨d0, h0, hm0, ⟨hf, -⟩ | ⟨-, v, d1, io', hrun, ht⟩ | ⟨-, d1, io', hrun, ht⟩⟩
  · rw [hm] at hc; cases hc
  · cases hf
  all_goals
    rw [hm] at hm0
    cases hm0
    rw [hrun] at hb
    rw [ht, ← show d1 = d' from hb]
    rfl

theorem setFlag_leaves (g : Group) (mask : Byte) (enabled : Bool) (cfg : Config) (d : DriverState) (io : Io) :
    (setFlag g mask enabled cfg d io).Leaves (d.withFlags g (updateMask enabled mask (d.flags g))) :=
  andThen_ok_leaves 0x00 (emit_leaves _ _ _)

/-! ### Bits of a flag register -/

theorem updateMask_getLsbD (enabled : Bool) (mask old : Byte) (i : Nat) (hi : i < 8) :
    (updateMask enabled mask old).getLsbD i = if mask.getLsbD i then enabled else old.getLsbD i := by
  unfold updateMask
  cases enabled <;> cases hm : mask.getLsbD i <;>
    simp only [if_true, if_false, Bool.false_eq_true, BitVec.getLsbD_or, BitVec.getLsbD_and, BitVec.getLsbD_not, hm, hi] <;>
    simp

/-- Bits that neither the register nor the mask has stay zero. -/
theorem updateMask_zero (enabled : Bool) {mask old z : Byte} (ho : old &&& z = 0) (hm : mask &&& z = 0) :
    updateMask enabled mask old &&& z = 0 := by
  apply BitVec.eq_of_getLsbD_eq
  intro i hi
  have h1 : (old &&& z).getLsbD i = false := by rw [ho]; simp
  have h2 : (mask &&& z).getLsbD i = false := by rw [hm]; simp
  simp only [BitVec.getLsbD_and] at *
  rw [updateMask_getLsbD _ _ _ _ hi]
  cases hz : z.getLsbD i
  · simp
  · simp only [hz, Bool.and_true] at h1 h2
    simp [h1, h2]

end Sys2Proof.Machine
end

