-- ==== Sys2Proof/Laws/Decode.lean ====
section
/-! SUPPORT. The 32-bit operand's bytes. -/

namespace Sys2Proof

/-- Four bytes of a word make the word. -/
theorem word32_bytes (w : BitVec 32) :
    word32 (w.extractLsb' 0 8) (w.extractLsb' 8 8) (w.extractLsb' 16 8) (w.extractLsb' 24 8) = w := by
  apply BitVec.eq_of_getLsbD_eq
  intro i hi
  simp only [word32, BitVec.getLsbD_append, BitVec.getLsbD_extractLsb']
  by_cases h1 : i < 8
  · simp [h1]
  by_cases h2 : i < 16
  · have : i - 8 < 8 := by omega
    simp [h1, this]; congr 1; omega
  by_cases h3 : i < 24
  · have : i - 8 - 8 < 8 := by omega
    have h' : ¬ i - 8 < 8 := by omega
    simp [h1, this, h']; congr 1; omega
  · have h4 : ¬ i - 8 - 8 < 8 := by omega
    have h' : ¬ i - 8 < 8 := by omega
    have h5 : i - 8 - 8 - 8 < 8 := by omega
    simp [h1, h4, h', h5]; congr 1; omega

/-- The bytes of a word made of four bytes are those. -/
theorem bytes32_word32 (a b c d : Byte) : bytes32 (word32 a b c d) = [a, b, c, d] := by
  simp only [bytes32, word32, List.cons.injEq, and_true]
  refine ⟨?_, ?_, ?_, ?_⟩
  all_goals
    apply BitVec.eq_of_getLsbD_eq
    intro i hi
    simp only [BitVec.getLsbD_extractLsb', BitVec.getLsbD_append, hi, decide_true, Bool.true_and]
  · simp [hi]
  · have h1 : ¬ 8 + i < 8 := by omega
    have h2 : 8 + i - 8 = i := by omega
    simp [h1, h2, hi]
  · have h1 : ¬ 16 + i < 8 := by omega
    have h2 : ¬ 16 + i - 8 < 8 := by omega
    have h3 : 16 + i - 8 - 8 = i := by omega
    simp only [h1, h2, h3, hi, if_true, if_false]
  · have h1 : ¬ 24 + i < 8 := by omega
    have h2 : ¬ 24 + i - 8 < 8 := by omega
    have h3 : ¬ 24 + i - 8 - 8 < 8 := by omega
    have h4 : 24 + i - 8 - 8 - 8 = i := by omega
    simp only [h1, h2, h3, h4, if_false]

end Sys2Proof
end

