-- ==== Sys2Proof/Laws/Failure.lean ====
section
/-! SUPPORT. Where a sequence of events fails: one that uses n answers completes when none of the next n fails, and otherwise fails at the
first of them that does (00_scope R16). The predicate composes, so that a request's failures are counted from one lemma per operation. -/

namespace Sys2Proof.Machine

/-- n answers are used: those still to come are the ones after the first n. -/
structure Io.Used (io io' : Io) (n : Nat) : Prop where
  replies : ∀ k, io'.replyAt k = io.replyAt (n + k)
  drawn : io'.drawn = io.drawn + n

theorem Io.Used.trans {a b c : Io} {n m : Nat} (h : a.Used b n) (h' : b.Used c m) : a.Used c (n + m) :=
  ⟨fun k => by rw [h'.replies, h.replies, Nat.add_assoc], by rw [h'.drawn, h.drawn, Nat.add_assoc]⟩

/-- None of the answers still to come fails. -/
theorem Io.Used.rest_ok {io io' : Io} {n j : Nat} (hu : io.Used io' n) (hok : io.transportOk (n + j)) :
    io'.transportOk j := by
  rw [Io.transportOk_iff] at *
  exact fun k hk => by rw [hu.replies]; exact hok _ (by omega)

theorem Io.used_afterEvents (io : Io) (l : Latch) (evs : List Event) (n : Nat) : io.Used (io.afterEvents l evs n) n :=
  ⟨fun k => io.replyAt_afterEvents l evs n k, rfl⟩

/-- A sequence of exactly n transport events: it completes when none fails, and fails at the first that does. -/
structure Uses {α : Type} (x : Io → Xfer α) (n : Nat) : Prop where
  completes : ∀ io, io.transportOk n → ∃ a io', x io = .ok a io' ∧ io.Used io' n
  fails : ∀ io j, j < n → io.transportOk j → (io.replyAt j).fails = true →
    ∃ io', x io = .failed io' ∧ io'.drawn = io.drawn + (j + 1)

/-- One transport event. -/
theorem Uses.one {α : Type} {x : Io → Xfer α}
    (hok : ∀ io, io.transportOk 1 → ∃ a io', x io = .ok a io' ∧ io.Used io' 1)
    (hf : ∀ io, io.reply.fails = true → ∃ io', x io = .failed io' ∧ io'.drawn = io.drawn + 1) : Uses x 1 :=
  ⟨hok, fun io j hj _ h => by
    obtain rfl : j = 0 := by omega
    exact hf io h⟩

theorem Uses.andThen {α β : Type} {x : Io → Xfer α} {f : α → Io → Xfer β} {n m : Nat} (hx : Uses x n)
    (hf : ∀ a, Uses (f a) m) : Uses (fun io => (x io).andThen f) (n + m) := by
  refine ⟨fun io hok => ?_, fun io j hj hok hfail => ?_⟩
  · obtain ⟨a, io', h1, hu⟩ := hx.completes io (ok_mono hok (by omega))
    obtain ⟨b, io'', h2, hu'⟩ := (hf a).completes io' (hu.rest_ok hok)
    exact ⟨b, io'', by rw [h1]; exact h2, hu.trans hu'⟩
  · by_cases hjn : j < n
    · obtain ⟨io', h1, hd⟩ := hx.fails io j hjn hok hfail
      exact ⟨io', by rw [h1]; rfl, hd⟩
    · obtain ⟨i, rfl⟩ : ∃ i, j = n + i := ⟨j - n, by omega⟩
      obtain ⟨a, io', h1, hu⟩ := hx.completes io (ok_mono hok (by omega))
      obtain ⟨io'', h2, hd⟩ := (hf a).fails io' i (by omega) (hu.rest_ok hok) (by rw [hu.replies]; exact hfail)
      exact ⟨io'', by rw [h1]; exact h2, by rw [hd, hu.drawn]; omega⟩

/-! ### The operations -/

theorem delay_uses (ns : BitVec 32) : Uses (delay ns) 0 :=
  ⟨fun io _ => ⟨(), _, delay_eq ns io, io.used_afterEvents _ _ 0⟩, fun _ _ h => absurd h (by omega)⟩

section
variable (cfg : Config)

theorem writeLcdBit_uses (i : BitVec 3) (b : Bool) : Uses (writeLcdBit cfg i b) 1 :=
  .one (fun io h => ⟨(), _, writeLcdBit_ok i b h, io.used_afterEvents _ _ 1⟩)
    fun io h => ⟨_, by simp only [writeLcdBit, h, if_true]; rfl, rfl⟩

theorem writeLcdPort_uses (v : Byte) : Uses (writeLcdPort cfg v) 1 :=
  .one (fun io h => ⟨(), _, writeLcdPort_ok v h, io.used_afterEvents _ _ 1⟩)
    fun io h => ⟨_, by simp only [writeLcdPort, h, if_true]; rfl, rfl⟩

theorem readLcdPort_uses : Uses (readLcdPort cfg) 1 :=
  .one (fun io h => ⟨_, _, readLcdPort_ok h, io.used_afterEvents _ _ 1⟩)
    fun io h => ⟨_, by simp only [readLcdPort, h, if_true]; rfl, rfl⟩

theorem pulseEnable_uses : Uses (pulseEnable cfg) 2 :=
  (writeLcdBit_uses cfg pinE true).andThen fun _ => (delay_uses cfg.tPulse).andThen fun _ =>
    (writeLcdBit_uses cfg pinE false).andThen fun _ => delay_uses cfg.tPulse

theorem beat_uses (v : Byte) : Uses (beat cfg v) 3 := (writeLcdPort_uses cfg v).andThen fun _ => pulseEnable_uses cfg

theorem sendByte_uses (b : Byte) : Uses (sendByte cfg b) 7 :=
  (readLcdPort_uses cfg).andThen fun _ => (beat_uses cfg _).andThen fun _ => beat_uses cfg _

theorem transfer_uses (rs : Bool) (p : Byte) : Uses (transfer cfg rs p) 8 :=
  (writeLcdBit_uses cfg pinRs rs).andThen fun _ => (sendByte_uses cfg p).andThen fun _ => delay_uses cfg.tSettle

theorem sendLongCommand_uses (c : Byte) : Uses (sendLongCommand cfg c) 8 :=
  (transfer_uses cfg false c).andThen fun _ => delay_uses cfg.tClear

theorem initNibbles_uses : Uses (initNibbles cfg) 12 :=
  (delay_uses cfg.tSetup0).andThen fun _ => (beat_uses cfg _).andThen fun _ => (delay_uses cfg.tSetup1).andThen fun _ =>
    (beat_uses cfg _).andThen fun _ => (delay_uses cfg.tSetup2).andThen fun _ => (beat_uses cfg _).andThen fun _ =>
      beat_uses cfg _

end

/-! ### Runs -/

/-- A run of exactly n transport events, the registers written so far given by how many completed: it completes with the registers
`after d`, and where it fails at the j-th it leaves `at_ d j`. -/
structure RunUses {α : Type} (x : DriverState → Io → Run α) (n : Nat) (at_ : DriverState → Nat → DriverState)
    (after : DriverState → DriverState) : Prop where
  completes : ∀ d io, io.transportOk n → ∃ a io', x d io = .ok a (after d) io' ∧ io.Used io' n
  fails : ∀ d io j, j < n → io.transportOk j → (io.replyAt j).fails = true →
    ∃ io', x d io = .raised (at_ d j) io' ∧ io'.drawn = io.drawn + (j + 1)

/-- Registers written, then events. -/
theorem Uses.emitAfter {α : Type} {x : Io → Xfer α} {n : Nat} (h : Uses x n) (g : DriverState → DriverState) :
    RunUses (fun d io => emit x (g d) io) n (fun d _ => g d) g :=
  ⟨fun d io hok => by
    obtain ⟨a, io', h1, hu⟩ := h.completes io hok
    exact ⟨a, io', emit_ok h1, hu⟩,
   fun d io j hj hok hf => by
    obtain ⟨io', h1, hd⟩ := h.fails io j hj hok hf
    exact ⟨io', emit_failed h1, hd⟩⟩

/-- Registers written after the last event. -/
theorem runUses_pure {α : Type} (f : DriverState → α) (g : DriverState → DriverState)
    (at_ : DriverState → Nat → DriverState) : RunUses (fun d io => Run.ok (f d) (g d) io) 0 at_ g :=
  ⟨fun _ io _ => ⟨_, io, rfl, fun k => by rw [Nat.zero_add], rfl⟩, fun _ _ _ h => absurd h (by omega)⟩

theorem RunUses.andThen {α β : Type} {x : DriverState → Io → Run α} {f : α → DriverState → Io → Run β} {n m : Nat}
    {a1 a2 : DriverState → Nat → DriverState} {g1 g2 : DriverState → DriverState} (hx : RunUses x n a1 g1)
    (hf : ∀ a, RunUses (f a) m a2 g2) :
    RunUses (fun d io => (x d io).andThen f) (n + m) (fun d j => if j < n then a1 d j else a2 (g1 d) (j - n))
      (fun d => g2 (g1 d)) := by
  refine ⟨fun d io hok => ?_, fun d io j hj hok hfail => ?_⟩
  · obtain ⟨a, io', h1, hu⟩ := hx.completes d io (ok_mono hok (by omega))
    obtain ⟨b, io'', h2, hu'⟩ := (hf a).completes (g1 d) io' (hu.rest_ok hok)
    exact ⟨b, io'', by rw [h1]; exact h2, hu.trans hu'⟩
  · by_cases hjn : j < n
    · obtain ⟨io', h1, hd⟩ := hx.fails d io j hjn hok hfail
      exact ⟨io', by simp only [h1, hjn, if_true]; rfl, hd⟩
    · obtain ⟨i, rfl⟩ : ∃ i, j = n + i := ⟨j - n, by omega⟩
      obtain ⟨a, io', h1, hu⟩ := hx.completes d io (ok_mono hok (by omega))
      obtain ⟨io'', h2, hd⟩ := (hf a).fails (g1 d) io' i (by omega) (hu.rest_ok hok) (by rw [hu.replies]; exact hfail)
      refine ⟨io'', ?_, by rw [hd, hu.drawn]; omega⟩
      simp only [h1, hjn, if_false, Nat.add_sub_cancel_left]
      exact h2

end Sys2Proof.Machine
end

