-- ==== Sys2Proof/Laws/PerInstr.lean ====
section
/-! SUPPORT. One lemma per instruction about its frame: the code the opcode table gives it, and the number of operand bytes it has at
least (30_encoding R71 to R81, R86). -/

namespace Sys2Proof.Laws.FrameShape

/-- The opcode table's code of each request (R86), of each command word (the place of its most significant 1, R71; 8 for data),
and of each init nibble (R81). -/
def tableCode : Instr → Nat
  | .openSession _ _ => 0x01
  | .closeSession => 0x02
  | .init => 0x03
  | .write _ => 0x04
  | .setCursor _ _ => 0x05
  | .setCursorAddress _ => 0x06
  | .getCursorAddress => 0x07
  | .clear => 0x08
  | .home => 0x09
  | .displayOn => 0x0A
  | .displayOff => 0x0B
  | .cursorOn => 0x0C
  | .cursorOff => 0x0D
  | .blinkOn => 0x0E
  | .blinkOff => 0x0F
  | .backlightOn => 0x10
  | .backlightOff => 0x11
  | .leftToRight => 0x12
  | .rightToLeft => 0x13
  | .autoscrollOn => 0x14
  | .autoscrollOff => 0x15
  | .setFlag _ _ _ => 0x16
  | .storeCustomBitmap _ _ => 0x17
  | .writeCustomBitmap _ => 0x18
  | .readSwitches => 0x19
  | .readSwitch _ => 0x1A
  | .sendCommand _ => 0x1B
  | .sendData _ => 0x1C
  | .sendByte _ => 0x1D
  | .setRs _ => 0x1E
  | .setRw _ => 0x1F
  | .setEnable _ => 0x20
  | .setBacklight _ => 0x21
  | .moveLeft => 0x22
  | .moveRight => 0x23
  | .leftJustify => 0x24
  | .rightJustify => 0x25
  | .clearDisplay => 0
  | .returnHome _ => 1
  | .entryModeSet _ _ => 2
  | .displayControl _ _ _ => 3
  | .cursorShift _ _ _ => 4
  | .functionSet _ _ _ _ => 5
  | .setCgramAddr _ _ => 6
  | .setDdramAddr _ => 7
  | .data _ => 8
  | .initNibble8Bit => 0x03
  | .initNibble4Bit => 0x02

/-- The frame carries the instruction's code: as its first byte, with at least the operand bytes the code needs; as the place of the
most significant 1 of its word; or as the whole of its port write. -/
def frameHasCode (code : Nat) : Frame → Bool
  | .request (op :: args) => op.toNat == code && Nat.ble (operandBytes op) args.length
  | .request [] => false
  | .controllerWord w => Nat.ble (2 ^ code) w.toNat && Nat.blt w.toNat (2 ^ (code + 1))
  | .portWrite v => v.toNat == code

/-- The statement about one instruction: its frame has its code. A bitmap's frame needs its 8 rows for the count. -/
def Statement (i : Instr) : Prop := i.wellFormed → frameHasCode (tableCode i) (encode i)

theorem openSession (busId selectId : Byte) : Statement (.openSession busId selectId) := fun _ => rfl
theorem closeSession : Statement .closeSession := fun _ => rfl
theorem init : Statement .init := fun _ => rfl
theorem write (msg : List Byte) : Statement (.write msg) := fun _ => rfl
theorem setCursor (col row : BitVec 32) : Statement (.setCursor col row) := fun _ => rfl
theorem setCursorAddress (addr : Byte) : Statement (.setCursorAddress addr) := fun _ => rfl
theorem getCursorAddress : Statement .getCursorAddress := fun _ => rfl
theorem clear : Statement .clear := fun _ => rfl
theorem home : Statement .home := fun _ => rfl
theorem displayOn : Statement .displayOn := fun _ => rfl
theorem displayOff : Statement .displayOff := fun _ => rfl
theorem cursorOn : Statement .cursorOn := fun _ => rfl
theorem cursorOff : Statement .cursorOff := fun _ => rfl
theorem blinkOn : Statement .blinkOn := fun _ => rfl
theorem blinkOff : Statement .blinkOff := fun _ => rfl
theorem backlightOn : Statement .backlightOn := fun _ => rfl
theorem backlightOff : Statement .backlightOff := fun _ => rfl
theorem leftToRight : Statement .leftToRight := fun _ => rfl
theorem rightToLeft : Statement .rightToLeft := fun _ => rfl
theorem autoscrollOn : Statement .autoscrollOn := fun _ => rfl
theorem autoscrollOff : Statement .autoscrollOff := fun _ => rfl
theorem setFlag (group mask enabled : Byte) : Statement (.setFlag group mask enabled) := fun _ => rfl
theorem storeCustomBitmap (slot : Byte) (rows : List Byte) : Statement (.storeCustomBitmap slot rows) := by
  intro h
  have h8 : rows.length = 8 := by simpa [Instr.wellFormed, Machine.bitmapDomain] using h
  simp [encode, tableCode, frameHasCode, h8, operandBytes]
theorem writeCustomBitmap (slot : Byte) : Statement (.writeCustomBitmap slot) := fun _ => rfl
theorem readSwitches : Statement .readSwitches := fun _ => rfl
theorem readSwitch (n : Byte) : Statement (.readSwitch n) := fun _ => rfl
theorem sendCommand (c : Byte) : Statement (.sendCommand c) := fun _ => rfl
theorem sendData (b : Byte) : Statement (.sendData b) := fun _ => rfl
theorem sendByte (b : Byte) : Statement (.sendByte b) := fun _ => rfl
theorem setRs (v : Byte) : Statement (.setRs v) := fun _ => rfl
theorem setRw (v : Byte) : Statement (.setRw v) := fun _ => rfl
theorem setEnable (v : Byte) : Statement (.setEnable v) := fun _ => rfl
theorem setBacklight (v : Byte) : Statement (.setBacklight v) := fun _ => rfl
theorem moveLeft : Statement .moveLeft := fun _ => rfl
theorem moveRight : Statement .moveRight := fun _ => rfl
theorem leftJustify : Statement .leftJustify := fun _ => rfl
theorem rightJustify : Statement .rightJustify := fun _ => rfl
theorem clearDisplay : Statement .clearDisplay := fun _ => rfl
theorem returnHome (x : BitVec 1) : Statement (.returnHome x) := fun _ => by revert x; decide
theorem entryModeSet (id s : BitVec 1) : Statement (.entryModeSet id s) := fun _ => by revert id s; decide
theorem displayControl (d c b : BitVec 1) : Statement (.displayControl d c b) := fun _ => by revert d c b; decide
theorem cursorShift (sc rl : BitVec 1) (x : BitVec 2) : Statement (.cursorShift sc rl x) := fun _ => by revert sc rl x; decide
theorem functionSet (dl n f : BitVec 1) (x : BitVec 2) : Statement (.functionSet dl n f x) := fun _ => by revert dl n f x; decide
theorem setCgramAddr (slot row : BitVec 3) : Statement (.setCgramAddr slot row) := fun _ => by revert slot row; decide
theorem setDdramAddr (addr : BitVec 7) : Statement (.setDdramAddr addr) := fun _ => by revert addr; decide
theorem data (byte : Byte) : Statement (.data byte) := fun _ => by revert byte; decide
theorem initNibble8Bit : Statement .initNibble8Bit := fun _ => rfl
theorem initNibble4Bit : Statement .initNibble4Bit := fun _ => rfl

end Sys2Proof.Laws.FrameShape
end

