-- ==== Sys2Proof/Laws/Trace.lean ====
section
/-! SUPPORT. Traces: what a completed request's record adds, and the count, the duration and the timed pulses of a trace put together from
parts. -/

namespace Sys2Proof.Machine

/-- The events of a completed request are those its interface was left after. -/
theorem State.newEvents_ended {s : State} {d : DriverState} {h : Handle} {v : Byte} {io : Io} {l : Latch}
    {evs : List Event} {n : Nat} (hio : io = s.io.afterEvents l evs n) : s.newEvents (s.ended d h io v) = evs := by
  subst hio
  simp [State.newEvents, State.ended, eventsOf, List.filterMap_append, List.filterMap_map]

theorem minDuration_append (a b : List Event) : minDuration (a ++ b) = minDuration a + minDuration b := by
  induction a with
  | nil => simp [minDuration]
  | cons e r ih => cases e <;> simp [minDuration, ih]; omega

theorem nibblesOf_append (a b : List Event) : nibblesOf (a ++ b) = nibblesOf a ++ nibblesOf b := List.filterMap_append ..

/-- A timed trace ends in no unfinished pulse, so timed traces in a row are timed. -/
theorem pulsesTimed_append {cfg : Config} {a b : List Event} (ha : pulsesTimed cfg a = true)
    (hb : pulsesTimed cfg b = true) : pulsesTimed cfg (a ++ b) = true := by
  induction a with
  | nil => exact hb
  | cons e r ih =>
    cases e with
    | wb reg bit v o =>
      cases o with
      | failed => simp only [pulsesTimed, List.cons_append] at ha ⊢; exact ih ha
      | ok =>
        simp only [pulsesTimed, List.cons_append, Bool.and_eq_true, Bool.or_eq_true] at ha ⊢
        refine ⟨?_, ih ha.2⟩
        rcases ha.1 with h | h
        · exact .inl h
        · cases r with
          | nil => simp at h
          | cons e' r' => cases e' <;> exact .inr h
    | tOpen b s o => simp only [pulsesTimed, List.cons_append] at ha ⊢; exact ih ha
    | tClose o => simp only [pulsesTimed, List.cons_append] at ha ⊢; exact ih ha
    | rd reg o => simp only [pulsesTimed, List.cons_append] at ha ⊢; exact ih ha
    | wr reg v o => simp only [pulsesTimed, List.cons_append] at ha ⊢; exact ih ha
    | delay ns => simp only [pulsesTimed, List.cons_append] at ha ⊢; exact ih ha

theorem length_transferTrace (cfg : Config) (rs : Bool) (s p : Byte) : (transferTrace cfg rs s p).length = 13 := rfl

theorem minDuration_transferTrace (cfg : Config) (rs : Bool) (s p : Byte) :
    minDuration (transferTrace cfg rs s p) = 4 * cfg.tPulse.toNat + cfg.tSettle.toNat := by
  simp [transferTrace, byteTrace, beatTrace, pulseTrace, minDuration]; omega

/-- INIT's steps 3 to 7 completed (40_init R112). -/
theorem initCommands_ok {cfg : Config} {d : DriverState} {io : Io} (h : io.transportOk 40) :
    initCommands cfg d io = .ok () ⟨0x00, 0x02, 0x07, 0x08⟩
      (((io.afterTransfers cfg [(false, 0x28), (false, 0x08), (false, 0x01)]).afterDelay cfg.tClear).afterTransfers cfg
        [(false, 0x06), (false, 0x0F)]) := by
  have k1 : io.transportOk 8 := ok_mono h (by omega)
  have k2 : (io.afterTransfer cfg false 0x28).transportOk 32 := ok_afterTransfer (m := 32) h cfg false 0x28
  have k3 := ok_afterTransfer (m := 24) k2 cfg false 0x08
  have k4' := ok_afterTransfer (m := 16) k3 cfg false 0x01
  have k4 := ok_rest 0 16 (by rwa [Nat.zero_add])
    (((io.afterTransfer cfg false 0x28).afterTransfer cfg false 0x08).afterTransfer cfg false 0x01).latch
    [.delay cfg.tClear]
  have k5 := ok_afterTransfer (m := 8) k4 cfg false 0x06
  replace k2 := ok_mono (m := 8) k2 (by omega)
  replace k3 := ok_mono (m := 8) k3 (by omega)
  replace k4 := ok_mono (m := 8) k4 (by omega)
  have e1 : functionSetPayload initFunctionSet = 0x28 := rfl
  have e2 : displayControlPayload initDisplayOff = 0x08 := rfl
  have e3 : entryModePayload initEntryMode = 0x06 := rfl
  have e4 : displayControlPayload initDisplayOn = 0x0F := rfl
  rw [initCommands, e1, e2, e3, e4, emit_sendCommand_ok k1, run_andThen_ok, emit_sendCommand_ok k2, run_andThen_ok,
    doClear_ok k3, run_andThen_ok, Io.afterDelay, emit_sendCommand_ok k4, run_andThen_ok, emit_sendCommand_ok k5]
  rfl

end Sys2Proof.Machine
end

