-- ==== Sys2Proof/Tests/Slice0.lean ====
section
/-! SUPPORT. The model's own tests: expected results from spec/95_test_vectors.md (the vector is named at each test) or from the rule
named; then, for each statement with hypotheses, a state and operands that meet them. -/

namespace Sys2Proof.Tests

open Sys2Proof Sys2Proof.Machine

/-! ### Ill-formed operands (30_encoding R89) -/

theorem test_wf_flag_group : (Instr.setFlag 1 0x03 0).wellFormed = true ∧ (Instr.setFlag 2 0x01 1).wellFormed = false := by
  decide
theorem test_wf_flag_mask : (Instr.setFlag 0 0x07 1).wellFormed = true ∧ (Instr.setFlag 0 0x10 1).wellFormed = false ∧
    (Instr.setFlag 1 0x04 1).wellFormed = false := by decide
theorem test_wf_switch : (Instr.readSwitch 7).wellFormed = true ∧ (Instr.readSwitch 8).wellFormed = false := by decide
theorem test_wf_message : (Instr.write []).wellFormed = true ∧ (Instr.write [0x41, 0x00, 0x42]).wellFormed = false := by
  decide
theorem test_wf_bitmap : (Instr.storeCustomBitmap 9 [0, 0, 0, 0, 0, 0, 0, 0]).wellFormed = true ∧
    (Instr.storeCustomBitmap 1 [0, 0, 0, 0, 0, 0, 0]).wellFormed = false ∧
    (Instr.storeCustomBitmap 1 [0, 0, 0, 0, 0, 0, 0, 0, 0]).wellFormed = false := by decide

/-! ### Every constructor's encoding, written out from R86, R71 to R81 -/

theorem test_decode_lifecycle : decode (.request [0x01, 0x0A, 0x0B]) = .ok (.openSession 0x0A 0x0B) ∧
    decode (.request [0x02]) = .ok .closeSession ∧ decode (.request [0x03]) = .ok .init := by decide
theorem test_decode_text : decode (.request [0x04, 0x61, 0x0A]) = .ok (.write [0x61, 0x0A]) ∧
    decode (.request [0x04]) = .ok (.write []) := by decide
theorem test_decode_cursor : decode (.request [0x05, 0x27, 0x00, 0x00, 0x00, 0x01, 0x02, 0x00, 0x80]) =
      .ok (.setCursor 0x00000027 0x80000201) ∧
    decode (.request [0x06, 0xC8]) = .ok (.setCursorAddress 0xC8) ∧ decode (.request [0x07]) = .ok .getCursorAddress ∧
    decode (.request [0x08]) = .ok .clear ∧ decode (.request [0x09]) = .ok .home := by decide
theorem test_decode_display : decode (.request [0x0A]) = .ok .displayOn ∧ decode (.request [0x0B]) = .ok .displayOff ∧
    decode (.request [0x0C]) = .ok .cursorOn ∧ decode (.request [0x0D]) = .ok .cursorOff ∧
    decode (.request [0x0E]) = .ok .blinkOn ∧ decode (.request [0x0F]) = .ok .blinkOff ∧
    decode (.request [0x10]) = .ok .backlightOn ∧ decode (.request [0x11]) = .ok .backlightOff := by decide
theorem test_decode_entry : decode (.request [0x12]) = .ok .leftToRight ∧ decode (.request [0x13]) = .ok .rightToLeft ∧
    decode (.request [0x14]) = .ok .autoscrollOn ∧ decode (.request [0x15]) = .ok .autoscrollOff ∧
    decode (.request [0x16, 0x01, 0x02, 0x07]) = .ok (.setFlag 1 2 7) := by decide
theorem test_decode_glyphs : decode (.request [0x17, 0x09, 0x00, 0x0A, 0x00, 0x11, 0x0E, 0x00, 0x00, 0x00]) =
      .ok (.storeCustomBitmap 9 [0x00, 0x0A, 0x00, 0x11, 0x0E, 0x00, 0x00, 0x00]) ∧
    decode (.request [0x18, 0x01]) = .ok (.writeCustomBitmap 1) := by decide
theorem test_decode_switches : decode (.request [0x19]) = .ok .readSwitches ∧
    decode (.request [0x1A, 0x03]) = .ok (.readSwitch 3) := by decide
theorem test_decode_raw : decode (.request [0x1B, 0xC0]) = .ok (.sendCommand 0xC0) ∧
    decode (.request [0x1C, 0x41]) = .ok (.sendData 0x41) ∧ decode (.request [0x1D, 0x41]) = .ok (.sendByte 0x41) ∧
    decode (.request [0x1E, 0x05]) = .ok (.setRs 5) ∧ decode (.request [0x1F, 0x01]) = .ok (.setRw 1) ∧
    decode (.request [0x20, 0x01]) = .ok (.setEnable 1) ∧ decode (.request [0x21, 0x00]) = .ok (.setBacklight 0) := by
  decide
theorem test_decode_placeholders : decode (.request [0x22]) = .ok .moveLeft ∧ decode (.request [0x23]) = .ok .moveRight ∧
    decode (.request [0x24]) = .ok .leftJustify ∧ decode (.request [0x25]) = .ok .rightJustify := by decide
theorem test_decode_commands : decode (.controllerWord 0b0_0000_0001#9) = .ok .clearDisplay ∧
    decode (.controllerWord 0b0_0000_0011#9) = .ok (.returnHome 1) ∧
    decode (.controllerWord 0b0_0000_0110#9) = .ok (.entryModeSet 1 0) ∧
    decode (.controllerWord 0b0_0000_1110#9) = .ok (.displayControl 1 1 0) ∧
    decode (.controllerWord 0b0_0001_0100#9) = .ok (.cursorShift 0 1 0) ∧
    decode (.controllerWord 0b0_0010_1000#9) = .ok (.functionSet 0 1 0 0) := by decide
theorem test_decode_addresses : decode (.controllerWord 0b0_0100_1000#9) = .ok (.setCgramAddr 1 0) ∧
    decode (.controllerWord 0b0_1100_0101#9) = .ok (.setDdramAddr 0x45) ∧
    decode (.controllerWord 0b1_0100_0001#9) = .ok (.data 0x41) ∧
    decode (.controllerWord 0b0_0000_0000#9) = .error .noCommand := by decide
theorem test_decode_nibbles : decode (.portWrite 0x03) = .ok .initNibble8Bit ∧
    decode (.portWrite 0x02) = .ok .initNibble4Bit ∧ decode (.portWrite 0x04) = .error (.notAnInitNibble 0x04) := by decide
theorem test_decode_rejects : decode (.request [0x00]) = .error (.reservedCode 0x00) ∧
    decode (.request [0x26]) = .error (.reservedCode 0x26) ∧ decode (.request [0x06]) = .error (.malformedRequest 0x06) ∧
    decode (.request [0x02, 0x00]) = .error (.malformedRequest 0x02) ∧ decode (.request []) = .error .emptyRequest := by
  decide
/-- 95_test_vectors §0: `SET_CURSOR -5, 3` is op 0x05, col -5, row 3. -/
theorem test_encode_set_cursor : encode (.setCursor (-5) 3) = .request [0x05, 0xFB, 0xFF, 0xFF, 0xFF, 3, 0, 0, 0] := by
  decide
theorem test_table_words : decodeTableWord 8 0x0A = some .displayOn ∧ decodeTableWord 16 0x1FF = some (.data 0xFF) ∧
    decodeTableWord 9 0x028 = some (.functionSet 0 1 0 0) ∧ decodeTableWord 8 0x17 =
      some (.storeCustomBitmap 0 [0, 0, 0, 0, 0, 0, 0, 0]) ∧ decodeTableWord 8 0x26 = none := by decide

/-! ### Written requests (R90), spellings and refusals -/

theorem test_assemble_call : assemble "read_switches()" = some .readSwitches ∧
    assemble "set_flag(EM, 0x03, 7)" = some (.setFlag 1 3 7) := by decide +kernel
theorem test_assemble_strings : assemble "WRITE \"\\r\\t\\x41\\101\\\"\"" = some (.write [0x0D, 0x09, 0x41, 0x41, 0x22]) ∧
    assemble "WRITE [0x41, 0, 66]" = some (.write [0x41, 0x00, 0x42]) := by decide +kernel
theorem test_assemble_refuses : assemble "READ_SWITCH 256" = none ∧ assemble "CLEAR 1" = none ∧
    assemble "WRITE [1,]" = none ∧ assemble "NOP" = none := by decide +kernel

/-! ### The states the vectors start from -/

/-- An answer without a failure; the byte is the draw. -/
def okReply (b : Byte := 0) : Reply := ⟨false, b, ⟨7⟩⟩
/-- A failing answer. -/
def failReply : Reply := ⟨true, 0, ⟨7⟩⟩
/-- n answers without a failure. -/
def okTape (n : Nat) : List Reply := List.replicate n okReply
/-- n answers without a failure, then a failing one. -/
def failAfter (n : Nat) : List Reply := okTape n ++ [failReply]

/-- A session with these registers and latch, and these answers to come. -/
def session (d : DriverState) (l : Latch) (tape : List Reply) : State :=
  { State.reset with mode := .opened d ⟨7⟩, io := { latch := l, log := [], transport := tape, drawn := 0 } }
/-- The state after INIT (§0, 40_init R113). -/
def afterInit (tape : List Reply) : State := session ⟨0x00, 0x02, 0x07, 0x08⟩ (Latch.ofByte 0x0F) tape
/-- Mode CLOSED, with answers to come. -/
def closed (tape : List Reply) : State := { State.reset with io := { State.reset.io with transport := tape } }
/-- The same state under other parameters. -/
def underWrap (s : State) : State := { s with cfg := { s.cfg with setCursorWrap := true } }
def underDraw (s : State) : State := { s with cfg := { s.cfg with portReadModel := .draw } }

/-- What a vector shows of an instruction: the events, the response and the mode. -/
def shows (i : Instr) (s : State) (evs : List Event) (r : Response) (m : Mode) : Bool :=
  match exec i s with
  | .next t => t.io.log == evs.map Output.event ++ [.response r] && t.mode == m
  | _ => false
/-- The same, and the latch. -/
def showsLatch (i : Instr) (s : State) (evs : List Event) (r : Response) (m : Mode) (l : Latch) : Bool :=
  shows i s evs r m && (match exec i s with
    | .next t => t.io.latch == l
    | _ => false)
/-- The same without the events, whose number stands for them. -/
def showsCount (i : Instr) (s : State) (n : Nat) (r : Response) (m : Mode) : Bool :=
  match exec i s with
  | .next t => (s.newEvents t).length == n && t.lastResponse == some r && t.mode == m
  | _ => false

/-- The notation of §0. -/
def wr (v : Byte) : Event := .wr 0x13 v .ok
def wb (i : BitVec 3) (v : Bool) : Event := .wb 0x13 i v .ok
def rd (v : Byte) : Event := .rd 0x13 (some v)
def pulse : List Event := [wb 4 true, .delay 1000, wb 4 false, .delay 1000]
/-- CMD or DAT, by its RS, its RD and its two nibble writes. -/
def xfer (rs : Bool) (r hi lo : Byte) : List Event :=
  [wb 6 rs, rd r, wr hi] ++ pulse ++ [wr lo] ++ pulse ++ [.delay 40000]
def sess (cur em dc fs : Byte) : Mode := .opened ⟨cur, em, dc, fs⟩ ⟨7⟩
def okR (v : Byte) : Response := ⟨.ok, v⟩
def errR (e : Status) : Response := ⟨e, 0x00⟩

/-! ### Lifecycle (2.10) and reset -/

theorem test_open : showsLatch (.openSession 0 0) (closed [okReply]) [.tOpen 0 0 (some ⟨7⟩)] (okR 0) (sess 0 0 0 0)
    Latch.unknown = true := by decide +kernel
theorem test_open_refused : shows (.openSession 0 0) (closed [failReply]) [.tOpen 0 0 none] (errR .transportOpenFailure)
      .closed = true ∧
    shows (.openSession 0 0) (afterInit []) [] (errR .illegalRequest) (sess 0 2 7 8) = true := by decide +kernel
theorem test_close : showsLatch .closeSession (afterInit [okReply]) [.tClose .ok] (okR 0) .closed Latch.unknown = true ∧
    showsLatch .closeSession (afterInit [failReply]) [.tClose .failed] (errR .transportIoFailure) .closed
      Latch.unknown = true := by decide +kernel
theorem test_closed_mode : shows .closeSession (closed []) [] (errR .notOpen) .closed = true ∧
    shows (.write [0x61]) (closed []) [] (errR .notOpen) .closed = true ∧
    shows .readSwitches (closed []) [] (errR .notOpen) .closed = true ∧
    shows (.readSwitch 8) (closed []) [] (errR .notOpen) .closed = true ∧
    shows .moveLeft (closed []) [] (errR .notImplemented) .closed = true := by decide +kernel
theorem test_placeholders : shows .moveRight (afterInit []) [] (errR .notImplemented) (sess 0 2 7 8) = true ∧
    shows .leftJustify (afterInit []) [] (errR .notImplemented) (sess 0 2 7 8) = true ∧
    shows .rightJustify (afterInit []) [] (errR .notImplemented) (sess 0 2 7 8) = true := by decide +kernel
/-- V-INIT-1, all 89 events. -/
theorem test_init : showsLatch .init (session DriverState.zeroed Latch.unknown (okTape 52))
    ([.delay 15000000, wr 0x03] ++ pulse ++ [.delay 5000000, wr 0x03] ++ pulse ++ [.delay 1000000, wr 0x03] ++ pulse ++
      [wr 0x02] ++ pulse ++ xfer false 0x02 0x02 0x08 ++ xfer false 0x08 0x00 0x08 ++ xfer false 0x08 0x00 0x01 ++
      [.delay 2600000] ++ xfer false 0x01 0x00 0x06 ++ xfer false 0x06 0x00 0x0F)
    (okR 0) (sess 0x00 0x02 0x07 0x08) (Latch.ofByte 0x0F) = true := by decide +kernel
/-- V-FAIL-4: event 25 is the 14th transport event. -/
theorem test_init_fails : (match exec .init (session DriverState.zeroed Latch.unknown (failAfter 13)) with
    | .next t => t.mode == sess 0 0 0 8 && t.lastResponse == some (errR .transportIoFailure) &&
        t.io.latch == Latch.ofByte 0x02 && (eventsOf t.io.log).drop 23 == [wb 6 false, .rd 0x13 none]
    | _ => false) = true := by decide +kernel

/-! ### Cursor (V-SRC-1 to V-SRC-3, 2.1 to 2.4) -/

theorem test_geometry : [0x00, 0x27, 0x28, 0x3F, 0x40, 0x41, 0x50, 0x67, 0x80, 0xFF].map address2col =
      [0, 39, 40, 63, 0, 1, 16, 39, 0, 63] ∧
    [0x00, 0x27, 0x28, 0x3F, 0x40, 0x41, 0x50, 0x67, 0x80, 0xFF].map address2row = [0, 0, 0, 0, 0, 1, 1, 1, 1, 1] := by
  decide
theorem test_clamps : [(-5 : BitVec 32), 0x80000000, 39, 40, 0x7FFFFFFF].map clampCol = [0, 0, 39, 39, 39] ∧
    [(-1 : BitVec 32), 1, 3].map clampRow = [0, 1, 1] := by decide
/-- V-SRC-3 in detail. -/
theorem test_set_cursor : showsLatch (.setCursor (-5) 3) (afterInit (okTape 8)) (xfer false 0x0F 0x0C 0x00) (okR 0x40)
    (sess 0x40 2 7 8) (Latch.ofByte 0x00) = true := by decide +kernel
/-- The table of 2.2 where SETCURSOR_WRAP matters. -/
theorem test_set_cursor_wrap :
    shows (.setCursor 16 1) (afterInit (okTape 8)) (xfer false 0x0F 0x0D 0x00) (okR 0x50) (sess 0x50 2 7 8) = true ∧
    shows (.setCursor 16 1) (underWrap (afterInit (okTape 8))) (xfer false 0x0F 0x08 0x00) (okR 0x00) (sess 0 2 7 8) = true ∧
    shows (.setCursor 39 1) (underWrap (afterInit (okTape 8))) (xfer false 0x0F 0x09 0x07) (okR 0x17) (sess 0x17 2 7 8) =
      true := by decide +kernel
/-- V-SRC-2, addresses 0x42, 80 and 255. -/
theorem test_set_cursor_address :
    shows (.setCursorAddress 0x42) (afterInit (okTape 8)) (xfer false 0x0F 0x0C 0x02) (okR 0x42) (sess 0x42 2 7 8) = true ∧
    shows (.setCursorAddress 80) (afterInit (okTape 8)) (xfer false 0x0F 0x08 0x00) (okR 0x00) (sess 0x00 2 7 8) = true ∧
    shows (.setCursorAddress 255) (afterInit (okTape 8)) (xfer false 0x0F 0x08 0x0F) (okR 0x0F) (sess 0x0F 2 7 8) = true := by
  decide +kernel
/-- V-ADDR-1. -/
theorem test_get_cursor_address : shows .getCursorAddress (session DriverState.zeroed Latch.unknown []) [] (okR 0x00)
      (sess 0 0 0 0) = true ∧
    shows .getCursorAddress (session ⟨0x42, 2, 7, 8⟩ (Latch.ofByte 0) []) [] (okR 0x42) (sess 0x42 2 7 8) = true := by
  decide +kernel
/-- V-CLR-1. -/
theorem test_clear : showsLatch .clear (session ⟨0x45, 2, 7, 8⟩ (Latch.ofByte 0x0F) (okTape 8))
    (xfer false 0x0F 0x00 0x01 ++ [.delay 2600000]) (okR 0) (sess 0 2 7 8) (Latch.ofByte 0x01) = true := by decide +kernel
/-- V-CLR-2. -/
theorem test_home : showsLatch .home (session ⟨0x2A, 2, 7, 8⟩ (Latch.ofByte 0x01) (okTape 8))
    (xfer false 0x01 0x00 0x02 ++ [.delay 2600000]) (okR 0) (sess 0 2 7 8) (Latch.ofByte 0x02) = true := by decide +kernel
/-- V-FAIL-2 and V-FAIL-3. -/
theorem test_cursor_failures :
    showsLatch (.setCursor 5 1) (afterInit (failAfter 2)) [wb 6 false, rd 0x0F, .wr 0x13 0x0C .failed]
      (errR .transportIoFailure) (sess 0x45 2 7 8) Latch.unknown = true ∧
    showsLatch .clear (session ⟨0x45, 2, 7, 8⟩ (Latch.ofByte 0x0F) (failAfter 0)) [.wb 0x13 6 false .failed]
      (errR .transportIoFailure) (sess 0x45 2 7 8) ((Latch.ofByte 0x0F).setCell 6 none) = true := by decide +kernel

/-! ### Text (2.5) -/

/-- V-TXT-3 in detail. -/
theorem test_write : showsLatch (.write [0x78]) (session ⟨0x4F, 2, 7, 8⟩ (Latch.ofByte 0x0F) (okTape 16))
    (xfer false 0x0F 0x0C 0x0F ++ xfer true 0x4F 0x47 0x48) (okR 0x50) (sess 0x50 2 7 8) (Latch.ofByte 0x48) = true := by
  decide +kernel
/-- V-TXT-1, V-TXT-2, V-TXT-5, V-TXT-6 and V-TXT-8; V-FAIL-1, whose event 29 is the 19th transport event. -/
theorem test_write_cases : showsCount (.write []) (afterInit (okTape 8)) 13 (okR 0x00) (sess 0 2 7 8) = true ∧
    showsCount (.write [0x0A, 0x0A]) (afterInit (okTape 24)) 39 (okR 0x40) (sess 0x40 2 7 8) = true ∧
    showsCount (.write [0x41]) (session ⟨0xFF, 2, 7, 8⟩ (Latch.ofByte 0x0F) (okTape 16)) 26 (okR 0x00) (sess 0 2 7 8) = true ∧
    showsCount (.write [0x41, 0x00, 0x42]) (afterInit []) 0 (errR .illegalRequest) (sess 0 2 7 8) = true ∧
    showsCount (.write [0x61, 0x62, 0x0A, 0x63, 0x64]) (afterInit (okTape 48)) 78 (okR 0x42) (sess 0x42 2 7 8) = true ∧
    showsCount (.write [0x61, 0x62]) (afterInit (failAfter 18)) 29 (errR .transportIoFailure) (sess 0x01 2 7 8) = true := by
  decide +kernel

/-! ### Control (2.6) -/

/-- The first BLINK_OFF in detail, and BLINK_ON before it. -/
theorem test_blink : showsLatch .blinkOff (afterInit (okTape 8)) (xfer false 0x0F 0x00 0x0E) (okR 0) (sess 0 2 6 8)
      (Latch.ofByte 0x0E) = true ∧
    shows .blinkOn (afterInit (okTape 8)) (xfer false 0x0F 0x00 0x0F) (okR 0) (sess 0 2 7 8) = true := by decide +kernel
/-- The display and cursor rows; the latch before each row holds the low nibble of the row above. -/
theorem test_display_cursor : shows .displayOff (afterInit (okTape 8)) (xfer false 0x0F 0x00 0x0B) (okR 0) (sess 0 2 3 8) = true ∧
    shows .cursorOff (session ⟨0, 2, 3, 8⟩ (Latch.ofByte 0x0B) (okTape 8)) (xfer false 0x0B 0x00 0x09) (okR 0)
      (sess 0 2 1 8) = true ∧
    shows .displayOn (session ⟨0, 2, 1, 8⟩ (Latch.ofByte 0x09) (okTape 8)) (xfer false 0x09 0x00 0x0D) (okR 0)
      (sess 0 2 5 8) = true ∧
    shows .cursorOn (session ⟨0, 2, 5, 8⟩ (Latch.ofByte 0x0D) (okTape 8)) (xfer false 0x0D 0x00 0x0F) (okR 0)
      (sess 0 2 7 8) = true := by decide +kernel
theorem test_entry_mode : shows .rightToLeft (afterInit (okTape 8)) (xfer false 0x0F 0x00 0x04) (okR 0) (sess 0 0 7 8) = true ∧
    shows .autoscrollOn (session ⟨0, 0, 7, 8⟩ (Latch.ofByte 0x04) (okTape 8)) (xfer false 0x04 0x00 0x05) (okR 0)
      (sess 0 1 7 8) = true ∧
    shows .leftToRight (session ⟨0, 1, 7, 8⟩ (Latch.ofByte 0x05) (okTape 8)) (xfer false 0x05 0x00 0x07) (okR 0)
      (sess 0 3 7 8) = true ∧
    shows .autoscrollOff (session ⟨0, 3, 7, 8⟩ (Latch.ofByte 0x07) (okTape 8)) (xfer false 0x07 0x00 0x06) (okR 0)
      (sess 0 2 7 8) = true := by decide +kernel
theorem test_set_flag : shows (.setFlag 0 0x06 0) (afterInit (okTape 8)) (xfer false 0x0F 0x00 0x09) (okR 0) (sess 0 2 1 8) = true ∧
    shows (.setFlag 0 0x06 7) (session ⟨0, 2, 1, 8⟩ (Latch.ofByte 0x09) (okTape 8)) (xfer false 0x09 0x00 0x0F) (okR 0)
      (sess 0 2 7 8) = true ∧
    shows (.setFlag 0 0 1) (afterInit (okTape 8)) (xfer false 0x0F 0x00 0x0F) (okR 0) (sess 0 2 7 8) = true := by
  decide +kernel
theorem test_set_flag_refused : shows (.setFlag 0 0x10 1) (afterInit []) [] (errR .illegalRequest) (sess 0 2 7 8) = true ∧
    shows (.setFlag 1 0x04 1) (afterInit []) [] (errR .illegalRequest) (sess 0 2 7 8) = true ∧
    shows (.setFlag 2 0x01 1) (afterInit []) [] (errR .illegalRequest) (sess 0 2 7 8) = true := by decide +kernel
/-- V-BL-1 and V-FAIL-5. -/
theorem test_backlight : showsLatch .backlightOn (afterInit [okReply]) [wb 7 true] (okR 0) (sess 0 2 7 8) (Latch.ofByte 0x8F) = true ∧
    showsLatch .backlightOff (session ⟨0, 2, 7, 8⟩ (Latch.ofByte 0x8F) [okReply]) [wb 7 false] (okR 0) (sess 0 2 7 8)
      (Latch.ofByte 0x0F) = true ∧
    showsLatch .backlightOn (afterInit [failReply]) [.wb 0x13 7 true .failed] (errR .transportIoFailure) (sess 0 2 7 8)
      ((Latch.ofByte 0x0F).setCell 7 none) = true := by decide +kernel

/-! ### Glyphs (2.7, program 3) -/

/-- Program 3, step 1: the command, the eight rows, and the latch. -/
theorem test_store_bitmap : showsLatch (.storeCustomBitmap 9 [0x00, 0x0A, 0x00, 0x11, 0x0E, 0x00, 0x00, 0x00])
    (session ⟨0x42, 2, 7, 8⟩ (Latch.ofByte 0x44) (okTape 72))
    (xfer false 0x04 0x04 0x08 ++ xfer true 0x48 0x40 0x40 ++ xfer true 0x40 0x40 0x4A ++ xfer true 0x4A 0x40 0x40 ++
      xfer true 0x40 0x41 0x41 ++ xfer true 0x41 0x40 0x4E ++ xfer true 0x4E 0x40 0x40 ++ xfer true 0x40 0x40 0x40 ++
      xfer true 0x40 0x40 0x40) (okR 0) (sess 0x42 2 7 8) (Latch.ofByte 0x40) = true := by decide +kernel
/-- V-GLY-2 and V-GLY-3. -/
theorem test_store_bitmap_cases : [7, 15, 0, 0xFF].map cgramPayload = [0x78, 0x78, 0x40, 0x78] ∧
    shows (.storeCustomBitmap 1 [0, 0, 0, 0, 0, 0, 0]) (afterInit []) [] (errR .illegalRequest) (sess 0 2 7 8) = true := by
  decide +kernel
/-- V-GLY-4. -/
theorem test_write_bitmap : shows (.writeCustomBitmap 9) (afterInit (okTape 16))
    (xfer false 0x0F 0x08 0x00 ++ xfer true 0x40 0x40 0x49) (okR 0x01) (sess 0x01 2 7 8) = true := by decide +kernel

/-! ### Switches (2.8) -/

theorem test_read_switches : shows .readSwitches (afterInit [okReply 0xF7]) [.rd 0x12 (some 0xF7)] (okR 0xF7)
      (sess 0 2 7 8) = true ∧
    shows .readSwitches (afterInit [failReply]) [.rd 0x12 none] (errR .transportIoFailure) (sess 0 2 7 8) = true := by
  decide +kernel
theorem test_read_switch : shows (.readSwitch 3) (afterInit [okReply 0xF7]) [.rd 0x12 (some 0xF7)] (okR 0) (sess 0 2 7 8) = true ∧
    shows (.readSwitch 3) (afterInit [okReply 0x08]) [.rd 0x12 (some 0x08)] (okR 1) (sess 0 2 7 8) = true ∧
    shows (.readSwitch 7) (afterInit [okReply 0x80]) [.rd 0x12 (some 0x80)] (okR 1) (sess 0 2 7 8) = true ∧
    shows (.readSwitch 8) (afterInit []) [] (errR .illegalRequest) (sess 0 2 7 8) = true := by decide +kernel

/-! ### Raw transfers (2.9) -/

/-- V-RAW-1, and V-RAW-8 with r = 0xA5. -/
theorem test_send_byte : showsLatch (.sendByte 0x41) (session ⟨0, 2, 7, 8⟩ (Latch.ofByte 0xC0) (okTape 7))
      ([rd 0xC0, wr 0xC4] ++ pulse ++ [wr 0xC1] ++ pulse) (okR 0) (sess 0 2 7 8) (Latch.ofByte 0xC1) = true ∧
    shows (.sendByte 0x41) (underDraw (afterInit (okReply 0xA5 :: okTape 6)))
      ([rd 0xA5, wr 0xA4] ++ pulse ++ [wr 0xA1] ++ pulse) (okR 0) (sess 0 2 7 8) = true := by decide +kernel
/-- V-RAW-6: E left high is read and written back. -/
theorem test_send_byte_enable_high : showsLatch (.sendByte 0x41) (session ⟨0, 2, 7, 8⟩ (Latch.ofByte 0x1F) (okTape 7))
    ([rd 0x1F, wr 0x14] ++ pulse ++ [wr 0x11] ++ pulse) (okR 0) (sess 0 2 7 8) (Latch.ofByte 0x01) = true := by decide +kernel
/-- V-RAW-2. -/
theorem test_send_command : shows (.sendCommand 0xC0) (session ⟨0, 2, 7, 8⟩ (Latch.ofByte 0x80) (okTape 8))
    (xfer false 0x80 0x8C 0x80) (okR 0) (sess 0 2 7 8) = true := by decide +kernel
/-- V-RAW-3, and V-RAW-5: RW persists. -/
theorem test_send_data : shows (.sendData 0x41) (session ⟨0, 2, 7, 8⟩ (Latch.ofByte 0x00) (okTape 8))
      (xfer true 0x40 0x44 0x41) (okR 0) (sess 0 2 7 8) = true ∧
    showsLatch (.sendData 0x41) (session ⟨0, 2, 7, 8⟩ (Latch.ofByte 0x2F) (okTape 8)) (xfer true 0x6F 0x64 0x61) (okR 0)
      (sess 0 2 7 8) (Latch.ofByte 0x61) = true := by decide +kernel
/-- V-RAW-5 to V-RAW-7. -/
theorem test_pins : shows (.setRs 5) (afterInit [okReply]) [wb 6 true] (okR 0) (sess 0 2 7 8) = true ∧
    showsLatch (.setRw 1) (afterInit [okReply]) [wb 5 true] (okR 0) (sess 0 2 7 8) (Latch.ofByte 0x2F) = true ∧
    showsLatch (.setEnable 1) (afterInit [okReply]) [wb 4 true] (okR 0) (sess 0 2 7 8) (Latch.ofByte 0x1F) = true ∧
    shows (.setBacklight 0) (afterInit [okReply]) [wb 7 false] (okR 0) (sess 0 2 7 8) = true := by decide +kernel

/-! ### Controller words and init nibbles on their own: the words of V-INIT-1 and program 1 to 3 -/

theorem test_words_long : shows .clearDisplay (session ⟨0x45, 2, 7, 8⟩ (Latch.ofByte 0x0F) (okTape 8))
      (xfer false 0x0F 0x00 0x01 ++ [.delay 2600000]) (okR 0) (sess 0x45 2 7 8) = true ∧
    shows (.returnHome 0) (afterInit (okTape 8)) (xfer false 0x0F 0x00 0x02 ++ [.delay 2600000]) (okR 0) (sess 0 2 7 8) = true := by
  decide +kernel
theorem test_words_flags : shows (.entryModeSet 1 0) (afterInit (okTape 8)) (xfer false 0x0F 0x00 0x06) (okR 0) (sess 0 2 7 8) = true ∧
    shows (.displayControl 1 1 0) (afterInit (okTape 8)) (xfer false 0x0F 0x00 0x0E) (okR 0) (sess 0 2 7 8) = true ∧
    shows (.cursorShift 1 0 0) (afterInit (okTape 8)) (xfer false 0x0F 0x01 0x08) (okR 0) (sess 0 2 7 8) = true ∧
    shows (.functionSet 0 1 0 0) (afterInit (okTape 8)) (xfer false 0x0F 0x02 0x08) (okR 0) (sess 0 2 7 8) = true := by
  decide +kernel
theorem test_words_addresses : shows (.setCgramAddr 1 0) (afterInit (okTape 8)) (xfer false 0x0F 0x04 0x08) (okR 0) (sess 0 2 7 8) = true ∧
    shows (.setDdramAddr 0x45) (afterInit (okTape 8)) (xfer false 0x0F 0x0C 0x05) (okR 0) (sess 0 2 7 8) = true ∧
    shows (.data 0x41) (session ⟨0, 2, 7, 8⟩ (Latch.ofByte 0x00) (okTape 8)) (xfer true 0x40 0x44 0x41) (okR 0)
      (sess 0 2 7 8) = true := by decide +kernel
theorem test_nibbles : showsLatch .initNibble8Bit (session DriverState.zeroed Latch.unknown (okTape 3)) (wr 0x03 :: pulse)
      (okR 0) (sess 0 0 0 0) (Latch.ofByte 0x03) = true ∧
    showsLatch .initNibble4Bit (session DriverState.zeroed Latch.unknown (okTape 3)) (wr 0x02 :: pulse) (okR 0)
      (sess 0 0 0 0) (Latch.ofByte 0x02) = true := by decide +kernel

/-! ### The step -/

/-- The first step after reset runs the frame presented. -/
theorem test_step_runs : (match step (State.reset.withFetchWord 8 0x22) with
    | .next t => t.requests == [] && t.io.log == [.response (errR .notImplemented)]
    | _ => false) = true := by decide +kernel
/-- 2.10: op 0x00 and op 0x26 in either mode. -/
theorem test_step_reserved : step (State.reset.withFetchWord 8 0x26) = .next (State.reset.refusedWith .illegalRequest) ∧
    step ((afterInit []).withFetchWord 8 0x00) = .next ((afterInit []).refusedWith .illegalRequest) := ⟨rfl, rfl⟩
/-- The words of the bring-up's commands, read back from a trace (R82): 0x28 and 0x08 of V-INIT-1. -/
theorem test_words_of_trace : wordsOf true none (xfer false 0x02 0x02 0x08 ++ xfer false 0x08 0x00 0x08) = [0x028, 0x008] := by
  decide
theorem test_status_codes : [Status.ok, .transportOpenFailure, .transportIoFailure, .notImplemented, .notOpen,
    .illegalRequest].map Status.code = [0, 1, 2, 3, 4, 5] := by decide
theorem test_current_place : (session ⟨0x42, 2, 7, 8⟩ (Latch.ofByte 0x44) []).curCol = some 2 ∧
    (session ⟨0x42, 2, 7, 8⟩ (Latch.ofByte 0x44) []).curRow = some 1 := by decide

/-! ### Witnesses: a state and operands that meet all the hypotheses of each statement, for each of its clauses -/

/-- A fresh session, as OPEN leaves it. -/
def fresh (tape : List Reply) : State := session DriverState.zeroed Latch.unknown tape
/-- A frame presented. -/
def present (s : State) (f : Frame) : State := { s with requests := [f] }
def reg0 : DriverState := ⟨0x00, 0x02, 0x07, 0x08⟩

theorem witness_ResetIsClosedWithUnknownLatch : isRequest .closeSession = true ∧ isOpen .closeSession = false ∧
    Instr.closeSession ∉ placeholders ∧ 7 < 8 := by decide
theorem witness_StepRunsTheDecodedInstruction : (present (closed []) (.request [0x02])).requests = [.request [0x02]] ∧
    decode (.request [0x02]) = .ok .closeSession ∧ (closed []).requests = [] := by decide
theorem witness_ReservedCodesAreRefused :
    ((0x00#8).toNat = 0 ∨ 0x26 ≤ (0x00#8).toNat) ∧ ((0x26#8).toNat = 0 ∨ 0x26 ≤ (0x26#8).toNat) ∧
    ((0xFF#8).toNat = 0 ∨ 0x26 ≤ (0xFF#8).toNat) ∧
    (present (closed []) (.request [0x26, 0x01])).requests = [.request [0x26, 0x01]] ∧
    (present (afterInit []) (.request [0x00])).requests = [.request [0x00]] := by decide
theorem witness_OnlyFramesThatAreNoInstructionStop :
    (present (closed []) (.request [])).requests = [.request []] ∧ decode (.request []) = .error .emptyRequest ∧
    decode (.request [0x01]) = .error (.malformedRequest 0x01) ∧ decode (.controllerWord 0) = .error .noCommand ∧
    decode (.portWrite 0x01) = .error (.notAnInitNibble 0x01) ∧ decode (.request [0x02]) = .ok .closeSession ∧
    decode (.request [0x26]) = .error (.reservedCode 0x26) := by decide
theorem witness_EncodeOfDecode : decode (.request [0x04, 0x61]) = .ok (.write [0x61]) ∧
    decode (.controllerWord 0x003) = .ok (.returnHome 1) ∧ decode (.portWrite 0x02) = .ok .initNibble4Bit := by decide
theorem witness_StepKeepsFlagsHardwired : (present (fresh (okTape 52)) (.request [0x03])).flagsHardwired = true ∧
    ∃ t, step (present (fresh (okTape 52)) (.request [0x03])) = .next t := ⟨by decide, _, rfl⟩
theorem witness_StepKeepsTheRecordWhole : (present (fresh (failAfter 13)) (.request [0x03])).recordIsWhole = true ∧
    ∃ t, step (present (fresh (failAfter 13)) (.request [0x03])) = .next t := ⟨by decide, _, rfl⟩
theorem witness_TransportErrorsArePrecise : ∃ (t : State) (evs : List Event) (r : Response), exec .backlightOn (afterInit [failReply]) = .next t ∧
    t.io.log = (afterInit [failReply]).io.log ++ evs.map Output.event ++ [.response r] ∧
    evs.getLast? = some (.wb 0x13 7 true .failed) ∧ r.status = .transportIoFailure ∧ r.status ≠ .ok :=
  ⟨_, [.wb 0x13 7 true .failed], ⟨.transportIoFailure, 0x00⟩, rfl, by decide⟩
theorem witness_TransportErrorsArePrecise_open : ∃ (t : State) (evs : List Event) (r : Response), exec (.openSession 0 0) (closed [failReply]) = .next t ∧
    t.io.log = (closed [failReply]).io.log ++ evs.map Output.event ++ [.response r] ∧
    evs.getLast? = some (.tOpen 0 0 none) ∧ r.status = .transportOpenFailure :=
  ⟨_, [.tOpen 0 0 none], ⟨.transportOpenFailure, 0x00⟩, rfl, by decide⟩
theorem witness_OnlyTheTwoPortsAreTouched :
    (∃ t, exec (.sendByte 0x41) (afterInit (okTape 7)) = .next t ∧ rd 0x0F ∈ (afterInit (okTape 7)).newEvents t ∧
      wr 0x04 ∈ (afterInit (okTape 7)).newEvents t ∧ wb 4 true ∈ (afterInit (okTape 7)).newEvents t) ∧
    ∃ t, exec .readSwitches (afterInit [okReply]) = .next t ∧ .rd 0x12 (some 0) ∈ (afterInit [okReply]).newEvents t :=
  ⟨⟨_, rfl, by decide +kernel⟩, _, rfl, by decide +kernel⟩
theorem witness_EnablePulsesAreTimed : (∀ v, Instr.sendByte 0x41 ≠ .setEnable v) ∧
    ∃ t, exec (.sendByte 0x41) (afterInit (okTape 7)) = .next t := ⟨fun _ h => Instr.noConfusion h, _, rfl⟩
theorem witness_RawAndReadingRequestsKeepTheRegisters : keepsRegisters (.sendByte 0x41) = true ∧ keepsRegisters .moveLeft = true ∧
    ∃ t, exec (.sendByte 0x41) (afterInit (failAfter 2)) = .next t :=
  ⟨rfl, rfl, _, rfl⟩
theorem witness_CursorRequestsChangeOnlyTheCursor : movesCursor (.write [0x41]) = true ∧
    (afterInit (okTape 16)).mode = .opened reg0 ⟨7⟩ ∧ ∃ t, exec (.write [0x41]) (afterInit (okTape 16)) = .next t :=
  ⟨rfl, rfl, _, rfl⟩
theorem witness_OnlyInitWritesFunctionSet : (fresh (okTape 52)).mode = .opened DriverState.zeroed ⟨7⟩ ∧
    (∃ t, exec .init (fresh (okTape 52)) = .next t ∧ t.mode = .opened reg0 ⟨7⟩) ∧
    (∃ t, exec .init (fresh (failAfter 1)) = .next t ∧ t.mode = .opened DriverState.zeroed ⟨7⟩) ∧
    reg0.functionSetFlags = 0x08 ∧ ∃ t, exec .blinkOff (afterInit (okTape 8)) = .next t ∧ t.mode = .opened ⟨0, 2, 6, 8⟩ ⟨7⟩ :=
  ⟨rfl, ⟨_, rfl, by decide +kernel⟩, ⟨_, rfl, by decide +kernel⟩, rfl, _, rfl, by decide +kernel⟩
theorem witness_ReadsLeaveTheLatch : isSwitchRequest (.readSwitch 3) = true ∧ Instr.moveLeft ∈ placeholders ∧
    (∃ t, exec (.readSwitch 3) (afterInit [failReply]) = .next t) ∧ (∃ t, exec .getCursorAddress (afterInit []) = .next t) ∧
    ∃ t, exec .moveLeft (closed []) = .next t := ⟨rfl, by decide, ⟨_, rfl⟩, ⟨_, rfl⟩, _, rfl⟩
theorem witness_ControlBitsPersist : (afterInit (okTape 8)).cfg.portReadModel = .latch ∧
    Instr.sendData 0x41 ≠ .closeSession ∧ (∃ t, exec (.sendData 0x41) (afterInit (okTape 8)) = .next t ∧ t.lastStatus = some .ok) ∧
    writesRw (.sendData 0x41) = false ∧ (afterInit (okTape 8)).io.latch[5] = some false ∧
    writesBacklight (.sendData 0x41) = false ∧ (afterInit (okTape 8)).io.latch[7] = some false :=
  ⟨rfl, by decide, ⟨_, rfl, by decide +kernel⟩, rfl, by decide, rfl, by decide⟩
theorem witness_RequestsNeedASession : (closed []).mode = .closed ∧ isRequest (.readSwitch 8) = true ∧
    isOpen (.readSwitch 8) = false ∧ Instr.readSwitch 8 ∉ placeholders := by decide
theorem witness_WordsNeedASessionAndKeepTheRegisters : (closed []).mode = .closed ∧ isRequest .initNibble8Bit = false ∧
    isRequest .clearDisplay = false ∧ ∃ t, exec .clearDisplay (afterInit (failAfter 0)) = .next t := ⟨rfl, rfl, rfl, _, rfl⟩
theorem witness_OperandsOutsideTheirDomainAreRefused : (afterInit []).mode = .opened reg0 ⟨7⟩ ∧
    (¬ (2 = 0#8 ∧ 1 &&& ~~~0x07#8 = 0) ∧ ¬ (2 = 1#8 ∧ 1 &&& ~~~0x03#8 = 0)) ∧
    (¬ (0 = 0#8 ∧ 0x08 &&& ~~~0x07#8 = 0) ∧ ¬ (0 = 1#8 ∧ 0x08 &&& ~~~0x03#8 = 0)) ∧
    (¬ (1 = 0#8 ∧ 0x04 &&& ~~~0x07#8 = 0) ∧ ¬ (1 = 1#8 ∧ 0x04 &&& ~~~0x03#8 = 0)) ∧
    7 < (8#8).toNat ∧ 0x00 ∈ [0x41#8, 0x00] ∧ [0x00#8].length ≠ 8 := by decide
theorem witness_OperandsOutsideTheirDomainAreRefused_inside : (Instr.setFlag 1 0x03 0).wellFormed = true ∧
    isOpen (.setFlag 1 0x03 0) = false ∧ ∃ t, exec (.setFlag 1 0x03 0) (afterInit (okTape 8)) = .next t := ⟨rfl, rfl, _, rfl⟩
theorem witness_OpenCreatesAZeroedSession : (closed [okReply]).mode = .closed ∧ ((closed [okReply]).io.replyAt 0).fails = false ∧
    ((closed [failReply]).io.replyAt 0).fails = true ∧ (afterInit []).mode = .opened reg0 ⟨7⟩ := by decide
theorem witness_CloseDiscardsTheSession : (afterInit [okReply]).mode = .opened reg0 ⟨7⟩ ∧
    ((afterInit [okReply]).io.replyAt 0).fails = false ∧ ((afterInit [failReply]).io.replyAt 0).fails = true ∧
    (closed []).mode = .closed := by decide
theorem witness_InitCompletes : (fresh (okTape 52)).mode = .opened DriverState.zeroed ⟨7⟩ ∧
    (fresh (okTape 52)).io.transportOk 52 = true := by decide +kernel
theorem witness_InitTraceAndEndState : (fresh (okTape 52)).mode = .opened DriverState.zeroed ⟨7⟩ ∧
    (fresh (okTape 52)).io.transportOk 52 = true ∧ (∃ t, exec .init (fresh (okTape 52)) = .next t) ∧
    (fresh (okTape 52)).cfg.portReadModel = .latch := ⟨rfl, by decide +kernel, ⟨_, rfl⟩, rfl⟩
theorem witness_InitStopsAtItsFirstFailure : ∀ n ∈ [0, 11, 12, 13, 19, 20, 35, 36, 43, 44, 51], n < 52 ∧
    (fresh (failAfter n)).mode = .opened DriverState.zeroed ⟨7⟩ ∧ (fresh (failAfter n)).io.transportOk n = true ∧
    ((fresh (failAfter n)).io.replyAt n).fails = true := by decide +kernel
theorem witness_TransfersComplete : (afterInit (okTape 8)).mode = .opened reg0 ⟨7⟩ ∧
    (afterInit (okTape 8)).io.transportOk 8 = true := by decide +kernel
theorem witness_LongCommandWordsComplete : (fresh (okTape 8)).mode = .opened DriverState.zeroed ⟨7⟩ ∧
    (fresh (okTape 8)).io.transportOk 8 = true := by decide +kernel
theorem witness_SendByteCompletes : (fresh (okTape 7)).mode = .opened DriverState.zeroed ⟨7⟩ ∧
    (fresh (okTape 7)).io.transportOk 7 = true := by decide +kernel
theorem witness_PortReadsFollowTheModel : (afterInit (okTape 7)).mode = .opened reg0 ⟨7⟩ ∧
    (afterInit (okTape 7)).io.transportOk 7 = true ∧ (∃ t, exec (.sendByte 0x41) (afterInit (okTape 7)) = .next t) ∧
    (afterInit (okTape 7)).cfg.portReadModel = .latch := ⟨rfl, by decide +kernel, ⟨_, rfl⟩, rfl⟩
theorem witness_PortReadsFollowTheModel_draw : (underDraw (afterInit (okTape 7))).mode = .opened reg0 ⟨7⟩ ∧
    (underDraw (afterInit (okTape 7))).io.transportOk 7 = true ∧
    (∃ t, exec (.sendByte 0x41) (underDraw (afterInit (okTape 7))) = .next t) ∧
    (underDraw (afterInit (okTape 7))).cfg.portReadModel = .draw := ⟨rfl, by decide +kernel, ⟨_, rfl⟩, rfl⟩
theorem witness_PinRequestsComplete : (afterInit [okReply]).mode = .opened reg0 ⟨7⟩ ∧
    (afterInit [okReply]).io.transportOk 1 = true := by decide
theorem witness_InitNibblesAreOneBeat : (fresh (okTape 3)).mode = .opened DriverState.zeroed ⟨7⟩ ∧
    (fresh (okTape 3)).io.transportOk 3 = true := by decide
theorem witness_FailedWritesMakeCellsUnknown : (afterInit [failReply]).mode = .opened reg0 ⟨7⟩ ∧
    ((afterInit [failReply]).io.replyAt 0).fails = true ∧
    (∃ v : Byte, false = decide (v.toNat ≠ 0) ∧ (Instr.setRs 0, 6#3) ∈ [(.setRs v, 6), (.setRw v, 5), (.setEnable v, 4),
      (.setBacklight v, 7)]) ∧
    (∃ v : Byte, true = decide (v.toNat ≠ 0) ∧ (Instr.setBacklight 0xFF, 7#3) ∈ [(.setRs v, 6), (.setRw v, 5),
      (.setEnable v, 4), (.setBacklight v, 7)]) ∧
    (Instr.backlightOff, 7#3, false) ∈ [(.backlightOn, 7, true), (.backlightOff, 7, false)] ∧
    (Instr.initNibble4Bit, 0x02#8) ∈ [(.initNibble8Bit, 0x03), (.initNibble4Bit, 0x02)] :=
  ⟨rfl, by decide, ⟨0, by decide⟩, ⟨0xFF, by decide⟩, by decide⟩
/-- A transfer whose first enable write, port write or port read fails, and a SET_RW that fails. -/
theorem witness_FailedWritesMakeCellsUnknown_last :
    (∃ t, exec (.sendData 0x41) (afterInit (failAfter 3)) = .next t ∧
      ((afterInit (failAfter 3)).newEvents t).getLast? = some (.wb 0x13 4 true .failed)) ∧
    (∃ t, exec (.sendData 0x41) (afterInit (failAfter 2)) = .next t ∧
      ((afterInit (failAfter 2)).newEvents t).getLast? = some (.wr 0x13 0x44 .failed)) ∧
    (∃ t, exec (.sendData 0x41) (afterInit (failAfter 1)) = .next t ∧
      ((afterInit (failAfter 1)).newEvents t).getLast? = some (.rd 0x13 none)) ∧
    ∃ t, exec (.setRw 1) (afterInit [failReply]) = .next t ∧
      ((afterInit [failReply]).newEvents t).getLast? = some (.wb 0x13 5 true .failed) :=
  ⟨⟨_, rfl, by decide +kernel⟩, ⟨_, rfl, by decide +kernel⟩, ⟨_, rfl, by decide +kernel⟩, _, rfl, by decide +kernel⟩
theorem witness_SetCursorCompletes : (afterInit (okTape 8)).mode = .opened reg0 ⟨7⟩ ∧
    (afterInit (okTape 8)).io.transportOk 8 = true ∧
    39 = (max 0 (min (0x7FFFFFFF#32).toInt 39)).toNat ∧ 0 = (max 0 (min (0x80000000#32).toInt 39)).toNat ∧
    1 = (max 0 (min (3#32).toInt 1)).toNat ∧
    (0x67#8).toNat = (if (afterInit (okTape 8)).cfg.setCursorWrap then (39 + 0x40 * 1) % 80 else 39 + 0x40 * 1) := by
  decide +kernel
theorem witness_SetCursorCompletes_wrap : (underWrap (afterInit (okTape 8))).mode = .opened reg0 ⟨7⟩ ∧
    (underWrap (afterInit (okTape 8))).io.transportOk 8 = true ∧ 39 = (max 0 (min (39#32).toInt 39)).toNat ∧
    1 = (max 0 (min (1#32).toInt 1)).toNat ∧
    (0x17#8).toNat = (if (underWrap (afterInit (okTape 8))).cfg.setCursorWrap then (39 + 0x40 * 1) % 80 else 39 + 0x40 * 1) := by
  decide +kernel
theorem witness_CursorAddressRequestsComplete : (afterInit (okTape 8)).mode = .opened reg0 ⟨7⟩ ∧
    (0x00#8).toNat = (80#8).toNat % 80 ∧ (0x4F#8).toNat = (79#8).toNat % 80 ∧ (0x0F#8).toNat = (255#8).toNat % 80 ∧
    (afterInit (okTape 8)).io.transportOk 8 = true := by decide +kernel
theorem witness_ClearAndHomeComplete : (afterInit (okTape 8)).mode = .opened reg0 ⟨7⟩ ∧
    (afterInit (okTape 8)).io.transportOk 8 = true := by decide +kernel
theorem witness_CursorMovesStoreBeforeSending : (afterInit (failAfter 2)).mode = .opened reg0 ⟨7⟩ ∧
    (∃ t, exec (.setCursor 5 1) (afterInit (failAfter 2)) = .next t) ∧
    ∃ t, exec (.setCursorAddress 255) (afterInit (failAfter 0)) = .next t := ⟨rfl, ⟨_, rfl⟩, _, rfl⟩
theorem witness_FailuresBeforeTheCursorWriteKeepIt :
    (∃ t, exec .clear (afterInit (failAfter 0)) = .next t ∧ t.lastStatus = some .transportIoFailure) ∧
    (∃ t, exec .home (afterInit (failAfter 7)) = .next t ∧ t.lastStatus = some .transportIoFailure) ∧
    ∃ t, exec (.writeCustomBitmap 9) (afterInit (failAfter 15)) = .next t ∧ t.lastStatus = some .transportIoFailure :=
  ⟨⟨_, rfl, by decide +kernel⟩, ⟨_, rfl, by decide +kernel⟩, _, rfl, by decide +kernel⟩
theorem witness_GetAfterSetCursorAddress : (afterInit (failAfter 0)).mode = .opened reg0 ⟨7⟩ ∧
    ∃ t, exec (.setCursorAddress 200) (afterInit (failAfter 0)) = .next t := ⟨rfl, _, rfl⟩
theorem witness_GeometryRoundTrip : (39 < 40 ∧ 1 < 2 ∧ (39, 1) ≠ (0, 1)) ∧ (0 < 40 ∧ 0 < 2 ∧ (0, 0) ≠ (0, 1)) ∧
    (0x00#8).toNat ≤ 0x40 ∧ (0x40#8).toNat ≤ 0x40 ∧ 0x40 < (0x41#8).toNat ∧ 0x40 < (0xFF#8).toNat := by decide
theorem witness_CursorTargetsAndTheirRange : ((0#32).toInt ≤ 0 ∨ (39#32).toInt ≤ 15) ∧ ((1#32).toInt ≤ 0 ∨ (15#32).toInt ≤ 15) := by
  decide
theorem witness_WriteCompletes : (afterInit (okTape 24)).mode = .opened reg0 ⟨7⟩ ∧ 0x00 ∉ [0x41#8, 0x0A] ∧
    (afterInit (okTape 24)).io.transportOk (8 * (1 + [0x41#8, 0x0A].length)) = true := by decide +kernel
theorem witness_WriteCompletes_empty : (afterInit (okTape 8)).mode = .opened reg0 ⟨7⟩ ∧ 0x00 ∉ ([] : List Byte) ∧
    (afterInit (okTape 8)).io.transportOk (8 * (1 + ([] : List Byte).length)) = true := by decide +kernel
theorem witness_WriteCountsTheBytesSent_resync : 0x00 ∉ [0x61#8, 0x0A] ∧ 0x00 ∉ ([] : List Byte) ∧ ∀ j ∈ [0, 7], j < 8 ∧
    (afterInit (failAfter j)).mode = .opened reg0 ⟨7⟩ ∧ (afterInit (failAfter j)).io.transportOk j = true ∧
    ((afterInit (failAfter j)).io.replyAt j).fails = true := by decide +kernel
theorem witness_WriteCountsTheBytesSent : (afterInit (failAfter 18)).mode = .opened reg0 ⟨7⟩ ∧
    0x00 ∉ [0x61#8] ++ 0x62 :: [] ∧ 2 < 8 ∧ (afterInit (failAfter 18)).io.transportOk (8 * (1 + [0x61#8].length) + 2) = true ∧
    ((afterInit (failAfter 18)).io.replyAt (8 * (1 + [0x61#8].length) + 2)).fails = true := by decide +kernel
theorem witness_WriteCountsTheBytesSent_newline : (afterInit (failAfter 15)).mode = .opened reg0 ⟨7⟩ ∧
    0x00 ∉ ([] : List Byte) ++ 0x0A :: [0x61] ∧ 7 < 8 ∧
    (afterInit (failAfter 15)).io.transportOk (8 * (1 + ([] : List Byte).length) + 7) = true ∧
    ((afterInit (failAfter 15)).io.replyAt (8 * (1 + ([] : List Byte).length) + 7)).fails = true := by decide +kernel
theorem witness_WriteEventCountAndDuration : (afterInit (okTape 24)).mode = .opened reg0 ⟨7⟩ ∧ 0x00 ∉ [0x41#8, 0x0A] ∧
    (afterInit (okTape 24)).io.transportOk (8 * (1 + [0x41#8, 0x0A].length)) = true ∧
    (∃ t, exec (.write [0x41, 0x0A]) (afterInit (okTape 24)) = .next t) ∧ 1 = [0x41#8, 0x0A].count 0x0A ∧
    1 = ([0x41#8, 0x0A].filter (· ≠ 0x0A)).length := ⟨rfl, by decide, by decide +kernel, ⟨_, rfl⟩, by decide, by decide⟩
theorem witness_StoreCustomBitmapCompletes : (afterInit (okTape 72)).mode = .opened reg0 ⟨7⟩ ∧
    [0#8, 10, 0, 17, 14, 0, 0, 0].length = 8 ∧ (afterInit (okTape 72)).io.transportOk 72 = true := by decide +kernel
theorem witness_GlyphSlotsAreMasked : (9#8).toNat % 8 = (1#8).toNat % 8 ∧ (0xFF#8).toNat % 8 = (7#8).toNat % 8 := by decide
theorem witness_WriteCustomBitmapCompletes : (afterInit (okTape 16)).mode = .opened reg0 ⟨7⟩ ∧
    (afterInit (okTape 16)).io.transportOk 16 = true := by decide +kernel
theorem witness_SetFlagCompletes : (afterInit (okTape 8)).mode = .opened reg0 ⟨7⟩ ∧
    (afterInit (okTape 8)).io.transportOk 8 = true ∧ 0x07 &&& ~~~0x07#8 = 0 ∧ 0x03 &&& ~~~0x03#8 = 0 ∧
    0x00#8 = (if (0 : Byte) = 0 then reg0.displayControlFlags &&& ~~~0x07#8 else reg0.displayControlFlags ||| 0x07) ∧
    0x03#8 = (if (7 : Byte) = 0 then reg0.entryModeFlags &&& ~~~0x03#8 else reg0.entryModeFlags ||| 0x03) := by decide +kernel
theorem witness_DisplayWrappersComplete : (afterInit (okTape 8)).mode = .opened reg0 ⟨7⟩ ∧
    (afterInit (okTape 8)).io.transportOk 8 = true ∧ (Instr.blinkOff, 0x06) ∈
      [(Instr.displayOn, reg0.displayControlFlags ||| 0x04), (.displayOff, reg0.displayControlFlags &&& ~~~0x04),
        (.cursorOn, reg0.displayControlFlags ||| 0x02), (.cursorOff, reg0.displayControlFlags &&& ~~~0x02),
        (.blinkOn, reg0.displayControlFlags ||| 0x01), (.blinkOff, reg0.displayControlFlags &&& ~~~0x01)] := by decide +kernel
theorem witness_EntryModeWrappersComplete : (afterInit (okTape 8)).mode = .opened reg0 ⟨7⟩ ∧
    (afterInit (okTape 8)).io.transportOk 8 = true ∧ (Instr.rightToLeft, 0x00) ∈
      [(Instr.leftToRight, reg0.entryModeFlags ||| 0x02), (.rightToLeft, reg0.entryModeFlags &&& ~~~0x02),
        (.autoscrollOn, reg0.entryModeFlags ||| 0x01), (.autoscrollOff, reg0.entryModeFlags &&& ~~~0x01)] := by decide +kernel
theorem witness_FlagWritesChangeOnlyTheMask : (afterInit (failAfter 0)).mode = .opened reg0 ⟨7⟩ ∧
    0x07 &&& ~~~0x07#8 = 0 ∧ (∃ t, exec (.setFlag 0 0x07 0) (afterInit (failAfter 0)) = .next t) ∧
    0x03 &&& ~~~0x03#8 = 0 ∧ ∃ t, exec (.setFlag 1 0x03 1) (afterInit (okTape 8)) = .next t :=
  ⟨rfl, by decide, ⟨_, rfl⟩, by decide, _, rfl⟩
theorem witness_BlinkOnThenOffKeepsTheOthers : (afterInit (failAfter 0)).mode = .opened reg0 ⟨7⟩ ∧
    ∃ t, exec .blinkOn (afterInit (failAfter 0)) = .next t ∧ ∃ u, exec .blinkOff t = .next u := ⟨rfl, _, rfl, _, rfl⟩
theorem witness_FlagPayloadsStayInTheirCommand : reg0.hardwired = true ∧ 0x07 &&& ~~~Group.dc.maskBits = 0 ∧
    0x00 = updateMask false 0x07 (reg0.flags .dc) ∧ 0x03 &&& ~~~Group.em.maskBits = 0 ∧
    0x03 = updateMask true 0x03 (reg0.flags .em) := by decide
theorem witness_SwitchReadsComplete : (afterInit [okReply 0xF7]).mode = .opened reg0 ⟨7⟩ ∧
    (afterInit [okReply 0xF7]).io.transportOk 1 = true ∧ 0xF7 = ((afterInit [okReply 0xF7]).io.replyAt 0).byte ∧
    (0#8).toNat ≤ 7 ∧ (7#8).toNat ≤ 7 := by decide

end Sys2Proof.Tests
end

/-! SUPPORT. The record as a sequence of whole requests, and what their events and responses say of a transport failure
(00_scope R16, 30_encoding R85, 60_exceptions R250, R252). -/

namespace Sys2Proof.Machine

/-! ### One request, as the record shows it -/

/-- A next state of an instruction is the old state with one whole request added. -/
theorem ended_of_exec {i : Instr} {s t : State} (h : exec i s = .next t) :
    ∃ evs r, Ended (MayEmit s.cfg i) s t evs r := by
  obtain ⟨t', evs, r, ht, he⟩ := exec_ended i s
  cases h.symm.trans ht
  exact ⟨evs, r, he⟩

theorem State.newEvents_of_log {s t : State} {evs : List Event} {r : Response}
    (h : t.io.log = s.io.log ++ evs.map Output.event ++ [.response r]) : s.newEvents t = evs := by
  simp [State.newEvents, h, eventsOf, List.filterMap_append, List.filterMap_map]

theorem State.lastResponse_of_log {t : State} {l : List Output} {r : Response} (h : t.io.log = l ++ [.response r]) :
    t.lastResponse = some r := by
  simp [State.lastResponse, h]

theorem Ended.newEvents {P : Event → Prop} {s t : State} {evs : List Event} {r : Response} (h : Ended P s t evs r) :
    s.newEvents t = evs := State.newEvents_of_log h.log

theorem Ended.lastResponse {P : Event → Prop} {s t : State} {evs : List Event} {r : Response} (h : Ended P s t evs r) :
    t.lastResponse = some r := State.lastResponse_of_log h.log

@[simp] theorem State.lastResponse_answered (s : State) (io : Io) (e : Status) :
    (s.answered io e).lastResponse = some ⟨e, 0x00⟩ := State.lastResponse_of_log rfl

/-! ### The record stays whole (30_encoding R85) -/

/-- After a response, and at the very beginning, the same entries may follow. -/
theorem recordWhole_after_response (r : Response) (l : List Output) :
    recordWhole (some (.response r)) l = recordWhole none l := by
  cases l with
  | nil => rfl
  | cons o rest => cases o <;> rfl

/-- A whole record followed by whole requests is whole. -/
theorem recordWhole_append {before : Option Output} {l m : List Output} (hl : recordWhole before l = true)
    (hm : recordWhole none m = true) : recordWhole before (l ++ m) = true := by
  induction l generalizing before with
  | nil =>
    match before with
    | none => exact hm
    | some (.response r) => exact (recordWhole_after_response r m).trans hm
    | some (.event e) => cases hl
  | cons o rest ih =>
    simp only [recordWhole, List.cons_append, Bool.and_eq_true] at hl ⊢
    obtain ⟨hfollows, hrest⟩ := hl
    exact ⟨hfollows, ih hrest⟩

/-- The entry before is no failing event, so that the request goes on. -/
def GoesOn : Option Output → Prop
  | some (.event e) => e.fails = false
  | _ => True

theorem GoesOn.event_follows {before : Option Output} (h : GoesOn before) (e : Event) :
    outputFollows before (.event e) = true := by
  match before with
  | none => rfl
  | some (.response r) => rfl
  | some (.event e') => simp [outputFollows, show e'.fails = false from h]

theorem GoesOn.ok_follows {before : Option Output} (h : GoesOn before) (v : Byte) :
    outputFollows before (.response ⟨.ok, v⟩) = true := by
  match before with
  | none => rfl
  | some (.response r) => rfl
  | some (.event e) => simp [outputFollows, show e.fails = false from h]

/-- Events without a failure before the rest of a request. -/
theorem Calm.recordWhole_append {P : Event → Prop} {evs : List Event} {m : List Output} {before : Option Output}
    (h : Calm P evs) (hb : GoesOn before) (hm : ∀ b, GoesOn b → recordWhole b m = true) :
    recordWhole before (evs.map Output.event ++ m) = true := by
  induction evs generalizing before with
  | nil => exact hm before hb
  | cons e rest ih =>
    obtain ⟨⟨he, -⟩, hrest⟩ := List.forall_mem_cons.mp h
    simp only [List.map_cons, List.cons_append, recordWhole, hb.event_follows e, Bool.true_and]
    exact ih hrest he

/-- A failing event is followed by its error response. -/
theorem failure_follows {e : Event} (h : e.fails = true) :
    outputFollows (some (.event e)) (.response ⟨e.failureStatus, 0x00⟩) = true := by
  simp [outputFollows, h]

/-- Events and a response that fit together are a whole request. -/
theorem Fits.recordWhole {P : Event → Prop} {evs : List Event} {r : Response} (h : Fits P evs r) :
    recordWhole none (evs.map Output.event ++ [.response r]) = true := by
  cases h with
  | completed evs v hc =>
    exact hc.recordWhole_append trivial fun b hb => by simp [Machine.recordWhole, hb.ok_follows v]
  | raised evs e hc hf _ =>
    rw [List.map_append, List.append_assoc]
    exact hc.recordWhole_append trivial fun b hb => by
      simp only [Machine.recordWhole, List.map_cons, List.map_nil, List.cons_append, List.nil_append,
        hb.event_follows e, failure_follows hf, Bool.and_self]
  | checked st h1 h2 h3 => simp [Machine.recordWhole, outputFollows, h2, h3]

/-- Everything a step can do: nothing where no request is presented, else one whole request. -/
theorem step_cases {s t : State} (h : step s = .next t) :
    (s.requests = [] ∧ t = s) ∨
    ∃ f rest P evs r, s.requests = f :: rest ∧ Ended P (s.accept rest) t evs r := by
  unfold step at h
  split at h
  next hr =>
    cases h
    exact .inl ⟨hr, rfl⟩
  next f rest hr =>
    refine .inr ⟨f, rest, ?_⟩
    split at h
    next i _ =>
      obtain ⟨evs, r, he⟩ := ended_of_exec h
      exact ⟨_, evs, r, hr, he⟩
    next e _ =>
      cases e with
      | reservedCode op =>
        cases h
        exact ⟨fun _ => True, [], _, hr, ended_refused (st := .illegalRequest) (by decide) (by decide) (by decide)⟩
      | malformedRequest op => cases h
      | emptyRequest => cases h
      | noCommand => cases h
      | notAnInitNibble v => cases h

/-- Settles O12: a step adds nothing or one whole request, and a whole record followed by a whole request is whole. -/
theorem stepKeepsTheRecordWhole : Obligations.StepKeepsTheRecordWhole := by
  intro s t hs h
  rcases step_cases h with ⟨-, rfl⟩ | ⟨_, _, _, evs, r, -, he⟩
  · exact hs
  · rw [State.recordIsWhole, he.log, List.append_assoc]
    exact recordWhole_append hs he.fits.recordWhole

/-! ### Errors are precise (R16, R250, R252) -/

/-- The record tells the events of a request from its response in one way only. -/
theorem events_response_inj {l : List Output} {evs evs' : List Event} {r r' : Response}
    (h : l ++ evs.map Output.event ++ [.response r] = l ++ evs'.map Output.event ++ [.response r']) :
    evs = evs' ∧ r = r' := by
  obtain ⟨hevs, hr⟩ := List.append_inj' h rfl
  have hinj : Function.Injective Output.event := fun a b hab => by cases hab; rfl
  exact ⟨hinj.list_map (List.append_cancel_left hevs), by cases hr; rfl⟩

/-- No event but the last fails. -/
theorem Fits.calm_before_last {P : Event → Prop} {evs : List Event} {r : Response} (h : Fits P evs r) :
    ∀ e ∈ evs.dropLast, e.fails = false := by
  cases h with
  | completed evs v hc => exact fun e he => (hc e (List.mem_of_mem_dropLast he)).1
  | raised evs e hc hf _ =>
    rw [List.dropLast_concat]
    exact fun e' he' => (hc e' he').1
  | checked st _ _ _ => exact fun e he => nomatch he

/-- A failing last event gives the response its status. -/
theorem Fits.status_of_failure {P : Event → Prop} {evs : List Event} {r : Response} (h : Fits P evs r) {e : Event}
    (hl : evs.getLast? = some e) (hf : e.fails = true) : r.status = e.failureStatus := by
  cases h with
  | completed evs v hc =>
    have := (hc e (List.mem_of_getLast? hl)).1
    rw [hf] at this
    cases this
  | raised evs e' _ _ _ =>
    rw [List.getLast?_concat] at hl
    cases hl
    rfl
  | checked st _ _ _ => cases hl

/-- A response that says a transport failure comes after a failing last event. -/
theorem Fits.failure_of_status {P : Event → Prop} {evs : List Event} {r : Response} (h : Fits P evs r)
    (hs : r.status = .transportOpenFailure ∨ r.status = .transportIoFailure) :
    ∃ e, evs.getLast? = some e ∧ e.fails = true := by
  cases h with
  | completed evs v _ => rcases hs with hs | hs <;> cases hs
  | raised evs e _ hf _ => exact ⟨e, List.getLast?_concat, hf⟩
  | checked st _ h2 h3 => exact absurd hs (not_or.mpr ⟨h2, h3⟩)

/-- A result comes only with OK. -/
theorem Fits.result_of_error {P : Event → Prop} {evs : List Event} {r : Response} (h : Fits P evs r)
    (hs : r.status ≠ .ok) : r.result = 0x00 := by
  cases h with
  | completed evs v _ => exact absurd rfl hs
  | raised evs e _ _ _ => rfl
  | checked st _ _ _ => rfl

/-- Settles O14: the events and the response the record shows are those of the one request, which fit together. -/
theorem transportErrorsArePrecise : Obligations.TransportErrorsArePrecise := by
  intro i s t evs r h hlog
  obtain ⟨evs', r', he⟩ := ended_of_exec h
  obtain ⟨rfl, rfl⟩ := events_response_inj (hlog.symm.trans he.log)
  refine ⟨he.fits.calm_before_last, fun e => he.fits.status_of_failure, fun hs => ?_, he.fits.result_of_error⟩
  obtain ⟨e, hl, hf⟩ := he.fits.failure_of_status hs
  exact ⟨e, List.mem_of_getLast? hl, hf⟩

end Sys2Proof.Machine

/-! SUPPORT. What a failed transport event does to the latch, and where INIT and WRITE stop (10_state R27, R28, 40_init R112, 43_text
R180, R181). -/

namespace Sys2Proof.Machine

/-! ### The primitives, when the transport fails (R27, R28) -/

theorem writeLcdBit_failed {cfg : Config} {io : Io} (i : BitVec 3) (b : Bool) (h : (io.replyAt 0).fails = true) :
    writeLcdBit cfg i b io =
      .failed (io.afterEvents (io.latch.setCell i none) [.wb cfg.lcdPortReg i b .failed] 1) := by
  have hr : io.reply.fails = true := h
  simp [writeLcdBit, hr, Io.takeReply_record_eq]

theorem writeLcdPort_failed {cfg : Config} {io : Io} (v : Byte) (h : (io.replyAt 0).fails = true) :
    writeLcdPort cfg v io = .failed (io.afterEvents Latch.unknown [.wr cfg.lcdPortReg v .failed] 1) := by
  have hr : io.reply.fails = true := h
  simp [writeLcdPort, hr, Io.takeReply_record_eq]

theorem readLcdPort_failed {cfg : Config} {io : Io} (h : (io.replyAt 0).fails = true) :
    readLcdPort cfg io = .failed (io.afterEvents io.latch [.rd cfg.lcdPortReg none] 1) := by
  have hr : io.reply.fails = true := h
  simp [readLcdPort, hr, Io.takeReply_record_eq']

theorem beat_failed {cfg : Config} {io : Io} (v : Byte) (h : (io.replyAt 0).fails = true) :
    beat cfg v io = .failed (io.afterEvents Latch.unknown [.wr cfg.lcdPortReg v .failed] 1) := by
  rw [beat, writeLcdPort_failed v h, andThen_failed]

/-- A transfer whose one read of the port fails: the register-select line is written by then. -/
theorem transfer_read_failed {cfg : Config} {io : Io} (rs : Bool) (p : Byte) (hok : io.transportOk 1)
    (hf : (io.replyAt 1).fails = true) :
    transfer cfg rs p io = .failed (io.afterEvents (io.latch.setCell 6 (some rs))
      [.wb cfg.lcdPortReg 6 rs .ok, .rd cfg.lcdPortReg none] 2) := by
  have hf' : ((io.afterBit cfg pinRs rs).replyAt 0).fails = true := by simpa [Io.afterBit] using hf
  rw [transfer, writeLcdBit_ok pinRs rs hok, andThen_ok, sendByte, readLcdPort_failed hf', andThen_failed,
    andThen_failed, Io.afterBit, Io.afterEvents_afterEvents]
  rfl

/-! ### The latch the last event leaves -/

theorem latchAfter_of_getLast {l : Latch} {evs : List Event} {e : Event} (h : evs.getLast? = some e) :
    latchAfter l evs = e.latchAfter (latchAfter l evs.dropLast) := by
  conv_lhs => rw [← List.dropLast_append_getLast? e h]
  exact latchAfter_append l evs.dropLast [e]

/-- The latch an instruction leaves is the one its events leave. -/
theorem latch_of_exec {i : Instr} {s t : State} (h : exec i s = .next t) :
    t.io.latch = latchAfter s.io.latch (s.newEvents t) := by
  obtain ⟨evs, r, he⟩ := ended_of_exec h
  rw [he.newEvents, he.latch]

/-- An instruction has done to the latch what its last event does. -/
theorem latch_of_last_event {i : Instr} {s t : State} {e : Event} (h : exec i s = .next t)
    (hl : (s.newEvents t).getLast? = some e) :
    t.io.latch = e.latchAfter (latchAfter s.io.latch (s.newEvents t).dropLast) :=
  (latch_of_exec h).trans (latchAfter_of_getLast hl)

/-! ### Requests of one bit write, and the init nibbles -/

theorem boolOperand_eq_toNat_ne_zero (v : Byte) : boolOperand v = decide (v.toNat ≠ 0) := by
  simp [boolOperand, ← BitVec.toNat_inj, bne, Bool.beq_eq_decide_eq]

/-- A body that only emits events and fails: mode and registers stay. -/
theorem request_emitOnly_failed {x : Config → Io → Xfer Unit} {s : State} {d : DriverState} {h : Handle} {io : Io}
    (hm : s.mode = .opened d h) (hx : x s.cfg s.io = .failed io) :
    request true (emitOnly x) s = .next (s.answered io .transportIoFailure) := by
  rw [request_raised hm (emitOnly_failed hx), State.answered, ← hm]
  rfl

/-- Settles O37: the primitives' failing branches, and the latch as the one the events leave. -/
theorem failedWritesMakeCellsUnknown : Obligations.FailedWritesMakeCellsUnknown := by
  refine ⟨fun cfg io hf => ⟨fun i b => writeLcdBit_failed i b hf, fun v => writeLcdPort_failed v hf,
    readLcdPort_failed hf⟩, fun i s t h => ⟨latch_of_exec h, fun _ _ _ hl => latch_of_last_event h hl,
    fun _ _ hl => latch_of_last_event h hl, fun _ hl => latch_of_last_event h hl⟩, fun s d h hm hf => ⟨?_, ?_⟩⟩
  · have hbit := fun (bit : BitVec 3) (b : Bool) =>
      request_emitOnly_failed (x := fun cfg io => writeLcdBit cfg bit b io) hm (writeLcdBit_failed bit b hf)
    rintro i bit b (⟨v, rfl, hi⟩ | hi)
    · rw [← boolOperand_eq_toNat_ne_zero]
      simp only [List.mem_cons, Prod.mk.injEq, List.not_mem_nil, or_false] at hi
      rcases hi with ⟨rfl, rfl⟩ | ⟨rfl, rfl⟩ | ⟨rfl, rfl⟩ | ⟨rfl, rfl⟩ <;> exact hbit _ _
    · simp only [List.mem_cons, Prod.mk.injEq, List.not_mem_nil, or_false] at hi
      rcases hi with ⟨rfl, rfl, rfl⟩ | ⟨rfl, rfl, rfl⟩ <;> exact hbit _ _
  · intro i v hi
    have hbeat := request_emitOnly_failed (x := fun cfg io => beat cfg v io) hm (beat_failed v hf)
    simp only [List.mem_cons, Prod.mk.injEq, List.not_mem_nil, or_false] at hi
    rcases hi with ⟨rfl, rfl⟩ | ⟨rfl, rfl⟩ <;> exact hbeat

/-! ### INIT stops at its first failure (40_init R112, 00_scope R17) -/

/-- The registers INIT has written when its n-th transport event fails (R112's seven steps). -/
def initRegistersAt (d : DriverState) (n : Nat) : DriverState where
  cursorAddress := if n < 36 then d.cursorAddress else 0x00
  entryModeFlags := if n < 36 then d.entryModeFlags else 0x02
  displayControlFlags := if n < 20 then d.displayControlFlags else if n < 44 then 0x00 else 0x07
  functionSetFlags := if n < 12 then d.functionSetFlags else 0x08

/-- The registers written so far may be given in another form. -/
theorem RunUses.congr {α : Type} {x : DriverState → Io → Run α} {n : Nat} {a a' : DriverState → Nat → DriverState}
    {g g' : DriverState → DriverState} (h : RunUses x n a g) (ha : ∀ d j, j < n → a d j = a' d j)
    (hg : ∀ d, g d = g' d) : RunUses x n a' g' :=
  ⟨fun d io hok => hg d ▸ h.completes d io hok, fun d io j hj hok hf => ha d j hj ▸ h.fails d io j hj hok hf⟩

theorem doClear_uses (cfg : Config) :
    RunUses (doClear cfg) 8 (fun d _ => d) fun d => { d with cursorAddress := 0x00 } :=
  (((sendLongCommand_uses cfg clearDisplayPayload).emitAfter id).andThen fun _ =>
    runUses_pure (fun _ => ()) (fun d => { d with cursorAddress := 0x00 }) fun d _ => d).congr
    (fun _ _ hj => if_pos hj) fun _ => rfl

/-- INIT's seven steps one after another: 12 transport events of the nibbles, then 8 for each of the five commands. -/
theorem initBody_uses (cfg : Config) : RunUses (initBody cfg) 52 initRegistersAt fun _ => ⟨0x00, 0x02, 0x07, 0x08⟩ := by
  have hcmd (p : Byte) := Uses.emitAfter (x := sendCommand cfg p) (transfer_uses cfg false p)
  have h : RunUses (initBody cfg) _ _ _ :=
    ((initNibbles_uses cfg).emitAfter id).andThen fun _ =>
      RunUses.andThen (x := initCommands cfg)
        ((hcmd (functionSetPayload initFunctionSet) fun d => { d with functionSetFlags := initFunctionSet }).andThen fun _ =>
          (hcmd (displayControlPayload initDisplayOff) fun d =>
              { d with displayControlFlags := initDisplayOff }).andThen fun _ =>
            (doClear_uses cfg).andThen fun _ =>
              (hcmd (entryModePayload initEntryMode) fun d => { d with entryModeFlags := initEntryMode }).andThen fun _ =>
                hcmd (displayControlPayload initDisplayOn) fun d => { d with displayControlFlags := initDisplayOn })
        fun _ => runUses_pure (fun _ => 0x00) id fun d _ => d
  refine h.congr (fun d j hj => ?_) fun _ => rfl
  simp only [initRegistersAt]
  have hstep : j < 12 ∨ (12 ≤ j ∧ j < 20) ∨ (20 ≤ j ∧ j < 28) ∨ (28 ≤ j ∧ j < 36) ∨ (36 ≤ j ∧ j < 44) ∨ 44 ≤ j := by
    omega
  rcases hstep with hj | hj | hj | hj | hj | hj <;> simp (disch := omega) only [if_pos, if_neg] <;> rfl

/-- The interface after INIT's nibbles: 23 events, and the last nibble on the port. -/
theorem Io.afterInitNibbles_eq (io : Io) (cfg : Config) :
    ∃ evs, evs.length = 23 ∧ io.afterInitNibbles cfg = io.afterEvents (latchAfterBeat 0x02) evs 12 := by
  simp only [Io.afterInitNibbles, Io.afterBeat, Io.afterDelay, Io.afterEvents_afterEvents]
  exact ⟨_, rfl, rfl⟩

theorem State.newEvents_answered (s : State) (m : Mode) (l : Latch) (evs : List Event) (n : Nat) (e : Status) :
    s.newEvents ({ s with mode := m }.answered (s.io.afterEvents l evs n) e) = evs :=
  State.newEvents_of_log rfl

/-- INIT whose n-th transport event is the first to fail. -/
theorem exec_init_fails {s : State} {d : DriverState} {h : Handle} {n : Nat} (hm : s.mode = .opened d h) (hn : n < 52)
    (hok : s.io.transportOk n) (hf : (s.io.replyAt n).fails = true) :
    ∃ io, exec .init s = .next ({ s with mode := .opened (initRegistersAt d n) h }.answered io .transportIoFailure) ∧
      io.drawn = s.io.drawn + (n + 1) := by
  obtain ⟨io, hb, hd⟩ := (initBody_uses s.cfg).fails d s.io n hn hok hf
  exact ⟨io, request_raised hm hb, hd⟩

/-- INIT whose first port read fails: 23 events of the nibbles, the register-select line low, and the read. -/
theorem initBody_read_failed {cfg : Config} {d : DriverState} {io : Io} (hok : io.transportOk 13)
    (hf : (io.replyAt 13).fails = true) :
    ∃ evs, evs.length = 25 ∧ evs.getLast? = some (.rd cfg.lcdPortReg none) ∧
      initBody cfg d io = .raised { d with functionSetFlags := 0x08 }
        (io.afterEvents ((latchAfterBeat 0x02).setCell 6 (some false)) evs 14) := by
  obtain ⟨evs, hlen, he⟩ := io.afterInitNibbles_eq cfg
  have hnib : initNibbles cfg io = .ok () (io.afterEvents (latchAfterBeat 0x02) evs 12) :=
    he ▸ initNibbles_ok (ok_mono hok (by omega))
  have hcmd : sendCommand cfg (functionSetPayload initFunctionSet) _ = .failed _ :=
    transfer_read_failed false _ (ok_rest 12 1 hok (latchAfterBeat 0x02) evs) (by simpa using hf)
  refine ⟨evs ++ [.wb cfg.lcdPortReg 6 false .ok, .rd cfg.lcdPortReg none], by simp [hlen], by simp, ?_⟩
  rw [initBody, emit_ok hnib, run_andThen_ok, initCommands, emit_failed hcmd, Io.afterEvents_afterEvents]
  rfl

/-- Settles O30: INIT's events and registers composed from its seven steps. -/
theorem initStopsAtItsFirstFailure : Obligations.InitStopsAtItsFirstFailure := by
  refine fun s d h hm => ⟨fun n hn hok hf => ?_, fun hok hf => ?_⟩
  · obtain ⟨io, ht, hdrawn⟩ := exec_init_fails hm hn hok hf
    obtain ⟨evs, r, he⟩ := ended_of_exec ht
    have hr : r = ⟨.transportIoFailure, 0x00⟩ :=
      Option.some.inj (he.lastResponse.symm.trans (State.lastResponse_answered ..))
    refine ⟨_, ht, State.lastResponse_answered .., ?_, ?_, rfl⟩
    · have hcount : io.drawn = s.io.drawn + transportCount evs := he.drawn
      rw [he.newEvents]
      omega
    · rw [he.newEvents]
      exact he.fits.failure_of_status (.inr (hr ▸ rfl))
  · obtain ⟨evs, hlen, hlast, hb⟩ := initBody_read_failed (d := d) hok hf
    refine ⟨_, request_raised hm hb, rfl, State.lastResponse_answered .., ?_, ?_, rfl⟩
    · rw [State.newEvents_answered, hlen]
    · rw [State.newEvents_answered, hlast]

/-! ### WRITE stops at its first failure (43_text R180 to R182) -/

theorem resync_uses (cfg : Config) : RunUses (resync cfg) 8 (fun d _ => d) id :=
  have h (d : DriverState) : RunUses (emit (setDdram cfg d.cursorAddress)) 8 (fun d _ => d) id :=
    (transfer_uses cfg false (ddramPayload d.cursorAddress)).emitAfter id
  ⟨fun d => (h d).completes d, fun d => (h d).fails d⟩

/-- The registers where the transfer of one message byte fails: only a newline has moved the cursor, before its command. -/
def registersInByte (d : DriverState) (b : Byte) : DriverState :=
  { d with cursorAddress := if b = 0x0A then 0x40 else d.cursorAddress }

theorem writeByte_uses (cfg : Config) (b : Byte) :
    RunUses (writeByte cfg b) 8 (fun d _ => registersInByte d b)
      fun d => { d with cursorAddress := cursorAfterByte d.cursorAddress b } := by
  by_cases hb : b = 0x0A
  · subst hb
    have hw : writeByte cfg 0x0A = fun d io => moveCursor cfg 0x40 d io :=
      funext₂ fun d io => by rw [← cursorTarget_newline cfg]; rfl
    rw [hw]
    exact (transfer_uses cfg false (ddramPayload 0x40)).emitAfter fun d => { d with cursorAddress := 0x40 }
  · have h : RunUses (putByte cfg b) 8 _ _ := ((transfer_uses cfg true b).emitAfter id).andThen fun _ =>
      runUses_pure (fun _ => ()) (fun d => { d with cursorAddress := d.cursorAddress + 1 }) fun d _ => d
    have hw : writeByte cfg b = putByte cfg b := funext₂ fun d io => if_neg hb
    rw [hw]
    exact h.congr (fun d j hj => by rw [if_pos hj, registersInByte, if_neg hb]; rfl) fun d => by
      rw [cursorAfterByte, if_neg hb]; rfl

/-- A message that fails inside the transfer of b: the bytes before it are counted. -/
theorem writeBytes_fails {cfg : Config} (sent : List Byte) {rest : List Byte} {b : Byte} {d : DriverState} {io : Io}
    {j : Nat} (hj : j < 8) (hok : io.transportOk (8 * sent.length + j))
    (hf : (io.replyAt (8 * sent.length + j)).fails = true) :
    ∃ io', writeBytes cfg (sent ++ b :: rest) d io =
      .raised (registersInByte { d with cursorAddress := cursorAfterMessage d.cursorAddress sent } b) io' := by
  induction sent generalizing d io with
  | nil =>
    rw [List.length_nil, Nat.mul_zero, Nat.zero_add] at hok hf
    obtain ⟨io', h, -⟩ := (writeByte_uses cfg b).fails d io j hj hok hf
    exact ⟨io', by rw [List.nil_append, writeBytes, h]; rfl⟩
  | cons c sent ih =>
    have hlen : 8 * (c :: sent).length + j = 8 + (8 * sent.length + j) := by simp; omega
    rw [hlen] at hok hf
    obtain ⟨_, io', h, hu⟩ := (writeByte_uses cfg c).completes d io (ok_mono hok (by omega))
    obtain ⟨io'', h'⟩ := ih (d := { d with cursorAddress := cursorAfterByte d.cursorAddress c }) (hu.rest_ok hok)
      (hu.replies _ ▸ hf)
    exact ⟨io'', by rw [List.cons_append, writeBytes, h]; exact h'⟩

/-- WRITE in its domain, whose re-sync and bytes raise. -/
theorem exec_write_raised {s : State} {d d' : DriverState} {h : Handle} {msg : List Byte} {io : Io}
    (hm : s.mode = .opened d h) (hmsg : 0x00 ∉ msg)
    (hb : ((resync s.cfg d s.io).andThen fun _ d io => writeBytes s.cfg msg d io) = .raised d' io) :
    exec (.write msg) s = .next ({ s with mode := .opened d' h }.answered io .transportIoFailure) := by
  have hdom : writeDomain msg = true := List.all_eq_true.mpr fun b hin =>
    bne_iff_ne.mpr fun h0 => hmsg (h0 ▸ hin)
  have hbody : returnCursor ((resync s.cfg d s.io).andThen fun _ d io => writeBytes s.cfg msg d io) = .raised d' io := by
    rw [hb]; rfl
  show request (writeDomain msg) _ s = _
  rw [hdom]
  exact request_raised hm hbody

/-- Settles O48: the re-sync first, then the induction over the bytes sent. -/
theorem writeCountsTheBytesSent : Obligations.WriteCountsTheBytesSent := by
  refine fun s d h hm => ⟨fun msg j hmsg hj hok hf => ?_, fun sent rest b j hmsg hj hok hf => ?_⟩
  · obtain ⟨io, hr, -⟩ := (resync_uses s.cfg).fails d s.io j hj hok hf
    exact ⟨_, exec_write_raised hm hmsg (by rw [hr]; rfl), State.lastResponse_answered .., rfl⟩
  · rw [Nat.mul_add, Nat.mul_one, Nat.add_assoc] at hok hf
    obtain ⟨_, io, hr, hu⟩ := (resync_uses s.cfg).completes d s.io (ok_mono hok (by omega))
    obtain ⟨io', hw⟩ := writeBytes_fails (cfg := s.cfg) sent (rest := rest) (b := b) (d := d) hj (hu.rest_ok hok)
      (hu.replies _ ▸ hf)
    exact ⟨_, exec_write_raised hm hmsg (by rw [hr]; exact hw), State.lastResponse_answered .., rfl⟩

end Sys2Proof.Machine

/-! SUPPORT. What an instruction does to the mode register, said once for each class of instructions: those that move the cursor,
those that write a flag register, INIT, and those that leave the mode and the driver registers alone (10_state R20 to R26). -/

namespace Sys2Proof.Machine

/-! ### Classes -/

/-- The requests that write a flag register, INIT apart (44_control R190, R193 to R202). -/
def writesFlags : Instr → Bool
  | .setFlag _ _ _ | .displayOn | .displayOff | .cursorOn | .cursorOff | .blinkOn | .blinkOff
  | .leftToRight | .rightToLeft | .autoscrollOn | .autoscrollOff => true
  | _ => false

/-- The requests that may change the mode register or a driver register under it. -/
def changesMode : Instr → Bool
  | .openSession _ _ | .closeSession | .init => true
  | i => movesCursor i || writesFlags i

theorem changesMode_cases {i : Instr} (h : changesMode i = true) :
    (∃ b se, i = .openSession b se) ∨ i = .closeSession ∨ i = .init ∨ movesCursor i ∨ writesFlags i := by
  cases i with
  | openSession b se => exact .inl ⟨b, se, rfl⟩
  | closeSession => exact .inr (.inl rfl)
  | init => exact .inr (.inr (.inl rfl))
  | _ => exact .inr (.inr (.inr ((Bool.or_eq_true _ _).mp h)))

/-! ### Changes of the mode register -/

/-- The mode stays, or it is OPEN with the same handle and the registers changed by R. -/
def Mode.ChangedBy (R : DriverState → DriverState → Prop) (m m' : Mode) : Prop :=
  m' = m ∨ ∃ d d' h, m = .opened d h ∧ m' = .opened d' h ∧ R d d'

/-- A request whose body changes the registers by R changes the mode by R, whatever ends it. -/
theorem request_changesMode {R : DriverState → DriverState → Prop} {domain : Bool}
    {body : Config → DriverState → Io → Run Byte} {s t : State} (hb : domain = true → ChangesBy R (body s.cfg))
    (h : request domain body s = .next t) : s.mode.ChangedBy R t.mode := by
  rcases request_cases h with
    ⟨-, rfl⟩ | ⟨d, hd, hm, ⟨-, rfl⟩ | ⟨hdom, v, d', io', hrun, rfl⟩ | ⟨hdom, d', io', hrun, rfl⟩⟩
  · exact .inl rfl
  · exact .inl rfl
  all_goals
    have hR := hb hdom d s.io
    rw [hrun] at hR
    exact .inr ⟨d, d', hd, hm, rfl, hR⟩

/-- A body that leaves the registers it began with keeps the mode, whatever ends the request. -/
theorem request_keeps_mode {domain : Bool} {body : Config → DriverState → Io → Run Byte} {s t : State}
    (hb : ∀ d io, (body s.cfg d io).Leaves d) (h : request domain body s = .next t) : t.mode = s.mode := by
  rcases request_cases h with
    ⟨-, rfl⟩ | ⟨d, hd, hm, ⟨-, rfl⟩ | ⟨-, v, d', io', hrun, rfl⟩ | ⟨-, d', io', hrun, rfl⟩⟩
  · rfl
  · rfl
  all_goals
    have hd' := hb d s.io
    rw [hrun] at hd'
    rw [hm, ← show d' = d from hd']
    rfl

theorem request_emitOnly_keeps_mode {domain : Bool} {x : Config → Io → Xfer Unit} {s t : State}
    (h : request domain (emitOnly x) s = .next t) : t.mode = s.mode :=
  request_keeps_mode (fun d io => andThen_ok_leaves 0x00 (emit_leaves (x s.cfg) d io)) h

theorem placeholder_keeps_mode {s t : State} (h : placeholder s = .next t) : t.mode = s.mode := by
  cases h
  rfl

/-- Every instruction outside the classes that change the mode keeps it, and with it the driver registers and the handle. -/
theorem exec_keeps_mode {i : Instr} {s t : State} (hi : changesMode i = false) (h : exec i s = .next t) :
    t.mode = s.mode := by
  cases i with
  | openSession | closeSession | init | write | setCursor | setCursorAddress | clear | home | writeCustomBitmap
  | setFlag | displayOn | displayOff | cursorOn | cursorOff | blinkOn | blinkOff
  | leftToRight | rightToLeft | autoscrollOn | autoscrollOff => cases hi
  | moveLeft | moveRight | leftJustify | rightJustify => exact placeholder_keeps_mode h
  | getCursorAddress => exact request_keeps_mode (fun d io => returnCursor_leaves (r := .ok () d io) rfl) h
  | readSwitches => exact request_keeps_mode (fun d io => emit_leaves (readSwitchPort s.cfg) d io) h
  | readSwitch n =>
    refine request_keeps_mode (fun d io => ?_) h
    cases hr : readSwitchPort s.cfg io <;> simp [emit, hr, Run.Leaves]
  | storeCustomBitmap | backlightOn | backlightOff | sendCommand | sendData | sendByte
  | setRs | setRw | setEnable | setBacklight | clearDisplay | returnHome | entryModeSet | displayControl
  | cursorShift | functionSet | setCgramAddr | setDdramAddr | data | initNibble8Bit | initNibble4Bit =>
    exact request_emitOnly_keeps_mode h

/-! ### The cursor -/

/-- No driver register but the cursor address is changed. -/
def CursorMoved (d d' : DriverState) : Prop := ∃ a, d' = { d with cursorAddress := a }

theorem CursorMoved.refl (d : DriverState) : CursorMoved d d := ⟨d.cursorAddress, rfl⟩

theorem CursorMoved.trans (a b c : DriverState) (h : CursorMoved a b) (h' : CursorMoved b c) : CursorMoved a c := by
  obtain ⟨x, rfl⟩ := h
  obtain ⟨y, rfl⟩ := h'
  exact ⟨y, rfl⟩

theorem pure_movesCursor {α : Type} (f : DriverState → α) (g : DriverState → Byte) :
    ChangesBy CursorMoved fun d io => Run.ok (f d) { d with cursorAddress := g d } io :=
  pure_changesBy f _ fun d => ⟨g d, rfl⟩

section
variable (cfg : Config)

theorem moveCursor_movesCursor (a : Byte) : ChangesBy CursorMoved (moveCursor cfg a) :=
  emit_after_write (setDdram cfg a) (fun d => { d with cursorAddress := a }) fun _ => ⟨a, rfl⟩

theorem resync_movesCursor : ChangesBy CursorMoved (resync cfg) := fun d io =>
  emit_changesBy CursorMoved.refl (setDdram cfg d.cursorAddress) d io

theorem doClear_movesCursor : ChangesBy CursorMoved (doClear cfg) :=
  (emit_changesBy CursorMoved.refl _).andThen CursorMoved.trans fun _ => pure_movesCursor _ fun _ => 0x00

theorem putByte_movesCursor (b : Byte) : ChangesBy CursorMoved (putByte cfg b) :=
  (emit_changesBy CursorMoved.refl _).andThen CursorMoved.trans fun _ => pure_movesCursor _ fun d => d.cursorAddress + 1

theorem writeByte_movesCursor (b : Byte) : ChangesBy CursorMoved (writeByte cfg b) := by
  intro d io
  unfold writeByte
  split
  · exact moveCursor_movesCursor cfg _ d io
  · exact putByte_movesCursor cfg b d io

theorem writeBytes_movesCursor (msg : List Byte) : ChangesBy CursorMoved (writeBytes cfg msg) := by
  induction msg with
  | nil => exact fun d _ => CursorMoved.refl d
  | cons b rest ih => exact (writeByte_movesCursor cfg b).andThen CursorMoved.trans fun _ => ih

end

theorem returnCursor_movesCursor {x : DriverState → Io → Run Unit} (h : ChangesBy CursorMoved x) :
    ChangesBy CursorMoved fun d io => returnCursor (x d io) :=
  h.andThen CursorMoved.trans fun _ d _ => CursorMoved.refl d

/-- A request that moves the cursor changes the mode by the cursor only. -/
theorem cursorRequest_changesMode {i : Instr} {s t : State} (hi : movesCursor i) (h : exec i s = .next t) :
    s.mode.ChangedBy CursorMoved t.mode := by
  cases i with
  | setCursor | setCursorAddress =>
    exact request_changesMode (fun _ => returnCursor_movesCursor (moveCursor_movesCursor s.cfg _)) h
  | write msg =>
    exact request_changesMode (fun _ => returnCursor_movesCursor
      ((resync_movesCursor s.cfg).andThen CursorMoved.trans fun _ => writeBytes_movesCursor s.cfg msg)) h
  | writeCustomBitmap slot =>
    exact request_changesMode (fun _ => returnCursor_movesCursor
      ((resync_movesCursor s.cfg).andThen CursorMoved.trans fun _ => putByte_movesCursor s.cfg slot)) h
  | clear =>
    exact request_changesMode (fun _ =>
      (doClear_movesCursor s.cfg).andThen CursorMoved.trans fun _ => pure_changesBy (fun _ => 0x00) id CursorMoved.refl) h
  | home =>
    exact request_changesMode (fun _ =>
      (emit_changesBy CursorMoved.refl _).andThen CursorMoved.trans fun _ => pure_movesCursor _ fun _ => 0x00) h
  | _ => cases hi

/-- Settles O18: the six requests change the mode by the cursor only, whatever ends them. -/
theorem cursorRequestsChangeOnlyTheCursor : Obligations.CursorRequestsChangeOnlyTheCursor := by
  intro i s t d h hi hm he
  rcases cursorRequest_changesMode hi he with hkept | ⟨d₀, _, h₀, hm₀, ht, a, rfl⟩
  · exact ⟨d.cursorAddress, hkept.trans hm⟩
  · cases hm.symm.trans hm₀
    exact ⟨a, ht⟩

/-! ### The flag registers -/

/-- A group's flag register is updated through a mask that the group admits (44_control R190, R191). -/
def FlagsWritten (d d' : DriverState) : Prop :=
  ∃ (g : Group) (mask : Byte) (enabled : Bool), mask &&& ~~~g.maskBits = 0 ∧
    d' = d.withFlags g (updateMask enabled mask (d.flags g))

theorem setFlag_writesFlags {g : Group} {mask : Byte} (hmask : mask &&& ~~~g.maskBits = 0) (enabled : Bool) (cfg : Config) :
    ChangesBy FlagsWritten (setFlag g mask enabled cfg) := by
  intro d io
  have hleaves := setFlag_leaves g mask enabled cfg d io
  have hwritten : FlagsWritten d (d.withFlags g (updateMask enabled mask (d.flags g))) := ⟨g, mask, enabled, hmask, rfl⟩
  cases hr : setFlag g mask enabled cfg d io <;> (rw [hr] at hleaves; exact hleaves ▸ hwritten)

theorem setFlagDomain_iff {group mask : Byte} :
    setFlagDomain group mask = true ↔ ∃ g, groupOperand group = some g ∧ mask &&& ~~~g.maskBits = 0 := by
  unfold setFlagDomain
  cases groupOperand group <;> simp

theorem setFlagOperand_eq {group : Byte} {g : Group} (hg : groupOperand group = some g) (mask enabled : Byte) :
    setFlagOperand group mask enabled = setFlag g mask (boolOperand enabled) := by
  funext cfg d io
  simp [setFlagOperand, hg]

/-- A request that writes a flag register changes the mode by that register only. -/
theorem flagRequest_changesMode {i : Instr} {s t : State} (hi : writesFlags i) (h : exec i s = .next t) :
    s.mode.ChangedBy FlagsWritten t.mode := by
  cases i with
  | setFlag group mask enabled =>
    refine request_changesMode (fun hdom => ?_) h
    obtain ⟨g, hg, hmask⟩ := setFlagDomain_iff.mp hdom
    rw [setFlagOperand_eq hg]
    exact setFlag_writesFlags hmask _ s.cfg
  | displayOn | displayOff | cursorOn | cursorOff | blinkOn | blinkOff | leftToRight | rightToLeft | autoscrollOn
  | autoscrollOff => exact request_changesMode (fun _ => setFlag_writesFlags (by decide) _ s.cfg) h
  | _ => cases hi

/-- A completed or failed SET_FLAG in its domain leaves its group's register updated. -/
theorem exec_setFlag_mode {s t : State} {d : DriverState} {h : Handle} {group mask enabled : Byte} {g : Group}
    (hg : groupOperand group = some g) (hmask : mask &&& ~~~g.maskBits = 0) (hm : s.mode = .opened d h)
    (he : exec (.setFlag group mask enabled) s = .next t) :
    t.mode = .opened (d.withFlags g (updateMask (boolOperand enabled) mask (d.flags g))) h := by
  have hdom : setFlagDomain group mask = true := setFlagDomain_iff.mpr ⟨g, hg, hmask⟩
  have hreq : request (setFlagDomain group mask) (setFlagOperand group mask enabled) s = .next t := he
  rw [hdom, setFlagOperand_eq hg] at hreq
  exact request_leaves hm (setFlag_leaves g mask _ s.cfg d s.io) hreq

/-- Settles O56: the register is written before the command, so that its bits are those of the masked update in any case. -/
theorem flagWritesChangeOnlyTheMask : Obligations.FlagWritesChangeOnlyTheMask := by
  have hbits (mask enabled old : Byte) (i : Nat) (hi : i < 8) :
      (updateMask (boolOperand enabled) mask old).getLsbD i =
        if mask.getLsbD i then decide (enabled ≠ 0) else old.getLsbD i := by
    rw [updateMask_getLsbD _ _ _ _ hi]
    simp [boolOperand, bne, Bool.beq_eq_decide_eq]
  intro s t d h mask enabled hm
  exact ⟨fun hmask he => ⟨_, exec_setFlag_mode (g := .dc) rfl hmask hm he, hbits mask enabled _⟩,
    fun hmask he => ⟨_, exec_setFlag_mode (g := .em) rfl hmask hm he, hbits mask enabled _⟩⟩

/-! ### The hardwired bits (R24 to R26) -/

theorem DriverState.hardwired_iff (d : DriverState) : d.hardwired = true ↔
    d.entryModeFlags &&& 0xFC = 0 ∧ d.displayControlFlags &&& 0xF8 = 0 ∧
      (d.functionSetFlags = 0x00 ∨ d.functionSetFlags = 0x08) := by
  simp [DriverState.hardwired]

theorem State.flagsHardwired_iff (s : State) :
    s.flagsHardwired = true ↔ ∀ d h, s.mode = .opened d h → d.hardwired = true := by
  unfold State.flagsHardwired
  cases s.mode <;> simp

/-- The hardwired bits, where they are as they should be, stay so. -/
def KeepsHardwired (d d' : DriverState) : Prop := d.hardwired = true → d'.hardwired = true

theorem KeepsHardwired.refl (d : DriverState) : KeepsHardwired d d := id

theorem KeepsHardwired.trans (a b c : DriverState) (h : KeepsHardwired a b) (h' : KeepsHardwired b c) : KeepsHardwired a c :=
  fun ha => h' (h ha)

theorem CursorMoved.keepsHardwired {d d' : DriverState} (h : CursorMoved d d') : KeepsHardwired d d' := by
  obtain ⟨a, rfl⟩ := h
  exact id

theorem FlagsWritten.keepsHardwired {d d' : DriverState} (h : FlagsWritten d d') : KeepsHardwired d d' := by
  obtain ⟨g, mask, enabled, hmask, rfl⟩ := h
  intro hd
  rw [DriverState.hardwired_iff] at hd ⊢
  obtain ⟨hem, hdc, hfs⟩ := hd
  cases g with
  | dc => exact ⟨hem, updateMask_zero enabled hdc hmask, hfs⟩
  | em => exact ⟨updateMask_zero enabled hem hmask, hdc, hfs⟩

/-- INIT's own values have the hardwired bits zero (40_init R112, R116). -/
theorem initBody_keepsHardwired (cfg : Config) : ChangesBy KeepsHardwired (initBody cfg) := by
  have hfs (d : DriverState) : KeepsHardwired d { d with functionSetFlags := initFunctionSet } := fun hd => by
    obtain ⟨hem, hdc, -⟩ := (d.hardwired_iff).mp hd
    exact (DriverState.hardwired_iff _).mpr ⟨hem, hdc, .inr rfl⟩
  have hdc {v : Byte} (hv : v &&& 0xF8 = 0) (d : DriverState) : KeepsHardwired d { d with displayControlFlags := v } :=
    fun hd => by
      obtain ⟨hem, -, hfs⟩ := (d.hardwired_iff).mp hd
      exact (DriverState.hardwired_iff _).mpr ⟨hem, hv, hfs⟩
  have hem (d : DriverState) : KeepsHardwired d { d with entryModeFlags := initEntryMode } := fun hd => by
    obtain ⟨-, hdc, hfs⟩ := (d.hardwired_iff).mp hd
    exact (DriverState.hardwired_iff _).mpr ⟨(by decide : initEntryMode &&& 0xFC = 0), hdc, hfs⟩
  have hclear : ChangesBy KeepsHardwired (doClear cfg) :=
    (emit_changesBy KeepsHardwired.refl _).andThen KeepsHardwired.trans fun _ =>
      pure_changesBy _ _ fun _ => CursorMoved.keepsHardwired ⟨0x00, rfl⟩
  exact (emit_changesBy KeepsHardwired.refl _).andThen KeepsHardwired.trans fun _ =>
    ChangesBy.andThen KeepsHardwired.trans (x := initCommands cfg)
      ((emit_after_write _ _ hfs).andThen KeepsHardwired.trans fun _ =>
        (emit_after_write _ _ (hdc (by decide))).andThen KeepsHardwired.trans fun _ =>
          hclear.andThen KeepsHardwired.trans fun _ =>
            (emit_after_write _ _ hem).andThen KeepsHardwired.trans fun _ => emit_after_write _ _ (hdc (by decide)))
      fun _ d _ => KeepsHardwired.refl d

theorem Mode.ChangedBy.flagsHardwired {R : DriverState → DriverState → Prop} {s t : State}
    (h : s.mode.ChangedBy R t.mode) (hR : ∀ d d', R d d' → KeepsHardwired d d') (hs : s.flagsHardwired) :
    t.flagsHardwired := by
  rw [State.flagsHardwired_iff] at hs ⊢
  intro d' hd' ht
  rcases h with hkept | ⟨d, _, _, hm, ht', hchange⟩
  · exact hs d' hd' (hkept ▸ ht)
  · cases ht.symm.trans ht'
    exact hR d d' hchange (hs d _ hm)

/-- OPEN leaves the mode, or creates a session whose registers are zeroed. -/
theorem execOpen_mode {busId selectId : Byte} {s t : State} (h : execOpen busId selectId s = .next t) :
    t.mode = s.mode ∨ ∃ hd, t.mode = .opened DriverState.zeroed hd := by
  cases hm : s.mode with
  | opened d hd =>
    simp only [execOpen, hm, Host.Outcome.next.injEq] at h
    exact .inl (h ▸ hm)
  | closed =>
    simp only [execOpen, hm, Host.Outcome.next.injEq, State.openFrom] at h
    subst h
    cases transportOpen busId selectId s.io with
    | ok hd io => exact .inr ⟨hd, rfl⟩
    | failed io => exact .inl rfl

/-- CLOSE leaves no session. -/
theorem execClose_mode {s t : State} (h : execClose s = .next t) : t.mode = .closed := by
  cases hm : s.mode with
  | closed =>
    simp only [execClose, hm, Host.Outcome.next.injEq] at h
    exact h ▸ hm
  | opened d hd =>
    simp only [execClose, hm, Host.Outcome.next.injEq, State.closeTransport] at h
    subst h
    cases transportClose s.discardSession.io <;> rfl

/-- Every instruction keeps the hardwired bits: it keeps the mode, or it belongs to one of the classes that change it. -/
theorem exec_keeps_flagsHardwired {i : Instr} {s t : State} (hs : s.flagsHardwired) (h : exec i s = .next t) :
    t.flagsHardwired := by
  cases hc : changesMode i with
  | false =>
    rw [State.flagsHardwired_iff, exec_keeps_mode hc h]
    exact s.flagsHardwired_iff.mp hs
  | true =>
    rcases changesMode_cases hc with ⟨b, se, rfl⟩ | rfl | rfl | hi | hi
    · rw [State.flagsHardwired_iff]
      rcases execOpen_mode h with hkept | ⟨hd, hopened⟩
      · exact hkept ▸ s.flagsHardwired_iff.mp hs
      · intro d h' ht
        cases hopened.symm.trans ht
        decide
    · rw [State.flagsHardwired_iff, execClose_mode h]
      exact fun _ _ hclosed => nomatch hclosed
    · exact (request_changesMode (fun _ => initBody_keepsHardwired s.cfg) h).flagsHardwired (fun _ _ => id) hs
    · exact (cursorRequest_changesMode hi h).flagsHardwired (fun _ _ => CursorMoved.keepsHardwired) hs
    · exact (flagRequest_changesMode hi h).flagsHardwired (fun _ _ => FlagsWritten.keepsHardwired) hs

/-- Every step runs an instruction on the state with its frame taken, or keeps the mode. -/
theorem exec_of_step {s t : State} (h : step s = .next t) :
    (∃ i rest, exec i (s.accept rest) = .next t) ∨ t.mode = s.mode := by
  unfold step at h
  split at h
  next =>
    cases h
    exact .inr rfl
  next f rest _ =>
    split at h
    next i _ => exact .inl ⟨i, rest, h⟩
    next e _ =>
      cases e with
      | reservedCode op =>
        cases h
        exact .inr rfl
      | malformedRequest | emptyRequest | noCommand | notAnInitNibble => cases h

/-- Settles O11: each instruction keeps the hardwired bits, and a step that runs none keeps the mode. -/
theorem stepKeepsFlagsHardwired : Obligations.StepKeepsFlagsHardwired := by
  intro s t hs h
  rcases exec_of_step h with ⟨i, rest, he⟩ | hkept
  · exact exec_keeps_flagsHardwired (s := s.accept rest) hs he
  · rw [State.flagsHardwired_iff, hkept]
    exact s.flagsHardwired_iff.mp hs

/-- Settles O2: at reset there is no session and the record is empty. -/
theorem resetMeetsTheInvariants : Obligations.ResetMeetsTheInvariants := ⟨rfl, rfl⟩

end Sys2Proof.Machine

/-! SUPPORT. OPEN and the requests in mode CLOSED (10_state R21, R36, 40_init R110, 60_exceptions R252). -/

namespace Sys2Proof.Machine

/-- In mode CLOSED every instruction but OPEN and the placeholders ends with NOT_OPEN. -/
theorem exec_closed {i : Instr} {s : State} (hm : s.mode = .closed) (hopen : isOpen i = false) (hi : i ∉ placeholders) :
    exec i s = .next (s.refusedWith .notOpen) := by
  cases i with
  | openSession => cases hopen
  | moveLeft | moveRight | leftJustify | rightJustify => exact absurd (by decide) hi
  | closeSession =>
    show execClose s = _
    rw [execClose, hm]
    rfl
  | _ => exact request_closed hm

/-- Settles O22: the mode is checked before the operands' domain. -/
theorem requestsNeedASession : Obligations.RequestsNeedASession := fun _ _ hm _ hopen hi => exec_closed hm hopen hi

/-- Settles O1: the state at reset is in mode CLOSED. -/
theorem resetIsClosedWithUnknownLatch : Obligations.ResetIsClosedWithUnknownLatch :=
  ⟨rfl, Latch.getElem_unknown, fun _ _ hopen hi => exec_closed rfl hopen hi⟩

theorem transportOpen_ok {busId selectId : Byte} {io : Io} (h : (io.replyAt 0).fails = false) :
    transportOpen busId selectId io = .ok (io.replyAt 0).handle
      (io.afterEvents io.latch [.tOpen busId selectId (some (io.replyAt 0).handle)] 1) := by
  have hr : io.reply.fails = false := h
  simp only [transportOpen, hr, Bool.false_eq_true, if_false, Io.takeReply_record_eq']
  rfl

theorem transportOpen_failed {busId selectId : Byte} {io : Io} (h : (io.replyAt 0).fails = true) :
    transportOpen busId selectId io = .failed (io.afterEvents io.latch [.tOpen busId selectId none] 1) := by
  have hr : io.reply.fails = true := h
  simp only [transportOpen, hr, if_true, Io.takeReply_record_eq']

/-- Settles O26: OPEN's three cases, by the mode and by TOpen's answer. -/
theorem openCreatesAZeroedSession : Obligations.OpenCreatesAZeroedSession := by
  have hopen (s : State) (b se : Byte) : exec (.openSession b se) s = execOpen b se s := rfl
  refine fun s busId selectId => ⟨fun hm hok => ?_, fun hm hfail => ?_, fun d h hm => ?_⟩
  · rw [hopen, execOpen, hm, State.openFrom, transportOpen_ok hok]
    rfl
  · rw [hopen, execOpen, hm, State.openFrom, transportOpen_failed hfail]
    rfl
  · rw [hopen, execOpen, hm]
    rfl

end Sys2Proof.Machine

/-! SUPPORT. The port latch across completed requests: what SEND_BYTE reads and writes back (10_state R28, 41_transfer R131), and that
under LATCH a known control bit stays (R138, R140). -/

namespace Sys2Proof.Machine

/-! ### The bytes SEND_BYTE writes -/

theorem toNat_upperNibble_or (v : Byte) {n : Byte} (hn : n.toNat < 16) :
    (v &&& 0xF0 ||| n).toNat = 16 * (v.toNat / 16) + n.toNat := by
  have hupper : ∀ v : Byte, (v &&& 0xF0).toNat = 2 ^ 4 * (v.toNat / 16) := by decide
  rw [BitVec.toNat_or, hupper, ← Nat.two_pow_add_eq_or_of_lt hn]

theorem firstWrite_eq (v b : Byte) : firstWrite v b = BitVec.ofNat 8 (16 * (v.toNat / 16) + b.toNat / 16) := by
  have hhigh : (b >>> 4).toNat = b.toNat / 16 := by simp [Nat.shiftRight_eq_div_pow]
  rw [← hhigh, ← toNat_upperNibble_or v (by rw [hhigh]; omega), BitVec.ofNat_toNat, BitVec.setWidth_eq]
  rfl

theorem secondWrite_eq (v b : Byte) : secondWrite v b = BitVec.ofNat 8 (16 * (v.toNat / 16) + b.toNat % 16) := by
  have hlow : (b &&& 0x0F).toNat = b.toNat % 16 := by
    rw [BitVec.toNat_and]
    exact Nat.and_two_pow_sub_one_eq_mod b.toNat 4
  rw [← hlow, ← toNat_upperNibble_or v (by rw [hlow]; omega), BitVec.ofNat_toNat, BitVec.setWidth_eq]
  rfl

/-- The upper nibble of both writes is the snapshot's; this is the one that the latch is left with. -/
theorem secondWrite_getLsbD (v b : Byte) {j : Nat} (hj : 4 ≤ j) (hj' : j < 8) :
    (secondWrite v b).getLsbD j = v.getLsbD j := by
  obtain rfl | rfl | rfl | rfl : j = 4 ∨ j = 5 ∨ j = 6 ∨ j = 7 := by omega
  all_goals simp [secondWrite]

/-- Settles O34: the completed SEND_BYTE in closed form, its events read off the trace. -/
theorem portReadsFollowTheModel : Obligations.PortReadsFollowTheModel := by
  intro s t d h b hm hok he
  have hrun : exec (.sendByte b) s = .next (s.ended d h (s.io.afterByte s.cfg b) 0x00) :=
    request_ok hm (emitOnly_ok (sendByte_ok b hok))
  cases he.symm.trans hrun
  have hevs : s.newEvents (s.ended d h (s.io.afterByte s.cfg b) 0x00) = byteTrace s.cfg (s.io.byteSnapshot s.cfg) b :=
    State.newEvents_ended rfl
  rw [hevs]
  refine ⟨s.io.byteSnapshot s.cfg, rfl, by rw [← firstWrite_eq]; rfl, by rw [← secondWrite_eq]; rfl,
    fun hlatch i hi => ?_, fun hdraw => ?_⟩
  · rw [Io.byteSnapshot, hlatch]
    exact Latch.getLsbD_readWith _ _ i hi
  · rw [Io.byteSnapshot, hdraw]
    rfl

/-! ### Sequences that keep a known cell -/

/-- Where it completes, the sequence leaves cell j at b if it was at b. -/
def KeepsCell {α : Type} (j : Fin 8) (b : Bool) (x : Io → Xfer α) : Prop :=
  ∀ io a io', x io = .ok a io' → io.latch[j] = some b → io'.latch[j] = some b

theorem KeepsCell.andThen {α β : Type} {j : Fin 8} {b : Bool} {x : Io → Xfer α} {f : α → Io → Xfer β}
    (hx : KeepsCell j b x) (hf : ∀ a, KeepsCell j b (f a)) : KeepsCell j b fun io => (x io).andThen f := by
  intro io c io'' h hb
  cases hr : x io with
  | failed io' =>
    simp only [hr, andThen_failed] at h
    cases h
  | ok a io' =>
    simp only [hr, andThen_ok] at h
    exact hf a io' c io'' h (hx io a io' hr hb)

theorem delay_keepsCell (j : Fin 8) (b : Bool) (ns : BitVec 32) : KeepsCell j b (delay ns) := by
  intro io a io' h hb
  rw [delay_eq] at h
  cases h
  exact hb

theorem readSwitchPort_keepsCell (j : Fin 8) (b : Bool) (cfg : Config) : KeepsCell j b (readSwitchPort cfg) := by
  intro io a io' h hb
  unfold readSwitchPort at h
  split at h <;> cases h
  exact hb

theorem writeLcdBit_keepsCell {j : Fin 8} (b : Bool) (cfg : Config) {i : BitVec 3} (v : Bool) (hij : i.toNat ≠ j) :
    KeepsCell j b (writeLcdBit cfg i v) := by
  intro io a io' h hb
  unfold writeLcdBit at h
  split at h <;> cases h
  exact ((io.latch.getElem_setCell i (some v) j j.isLt).trans (if_neg hij)).trans hb

/-- A sequence of n transport events completes only where none of the n fails. -/
theorem Uses.transportOk_of_ok {α : Type} {x : Io → Xfer α} {n : Nat} (hx : Uses x n) {io io' : Io} {a : α}
    (h : x io = .ok a io') : io.transportOk n := by
  by_contra hn
  have hex : ∃ k, k < n ∧ (io.replyAt k).fails = true := by
    simpa [Io.transportOk_iff] using hn
  obtain ⟨hk, hfails⟩ := Nat.find_spec hex
  have hbefore : io.transportOk (Nat.find hex) := (io.transportOk_iff _).mpr fun k hlt => by
    have := Nat.find_min hex hlt
    simpa [show k < n by omega] using this
  obtain ⟨_, hfailed, -⟩ := hx.fails io _ hk hbefore hfails
  cases h.symm.trans hfailed

section
variable {j : Fin 8} {b : Bool} {cfg : Config}

/-- Under LATCH a known cell above the nibble is read as it stands and written back, the enable line apart. -/
theorem Io.afterByte_cell (hj : j = 5 ∨ j = 7) (hcfg : cfg.portReadModel = .latch) {io : Io} (p : Byte)
    (hb : io.latch[j] = some b) : (io.afterByte cfg p).latch[j] = some b := by
  have hj4 : (4#3).toNat ≠ j := by rcases hj with rfl | rfl <;> decide
  have hjge : 4 ≤ j.val := by rcases hj with rfl | rfl <;> decide
  have hread : (io.byteSnapshot cfg).getLsbD j = b := by
    rw [Io.byteSnapshot, hcfg]
    refine (Latch.getLsbD_readWith _ _ j j.isLt).trans ?_
    rw [show io.latch[j.val] = some b from hb]
    rfl
  calc (io.afterByte cfg p).latch[j]
      = (latchAfterBeat (secondWrite (io.byteSnapshot cfg) p))[j.val] := rfl
    _ = (Latch.ofByte (secondWrite (io.byteSnapshot cfg) p))[j.val] :=
      (Latch.getElem_setCell _ 4 _ j j.isLt).trans (if_neg hj4)
    _ = some ((io.byteSnapshot cfg).getLsbD j) := by
      rw [Latch.getElem_ofByte, secondWrite_getLsbD _ _ hjge j.isLt]
    _ = some b := by rw [hread]

variable (hj : j = 5 ∨ j = 7) (hcfg : cfg.portReadModel = .latch)
include hj hcfg

theorem sendByte_keepsCell (p : Byte) : KeepsCell j b (sendByte cfg p) := by
  intro io a io' h hb
  rw [sendByte_ok p ((sendByte_uses cfg p).transportOk_of_ok h)] at h
  cases h
  exact Io.afterByte_cell hj hcfg p hb

theorem transfer_keepsCell (rs : Bool) (p : Byte) : KeepsCell j b (transfer cfg rs p) :=
  (writeLcdBit_keepsCell b cfg rs (by rcases hj with rfl | rfl <;> decide)).andThen fun _ =>
    (sendByte_keepsCell hj hcfg p).andThen fun _ => delay_keepsCell j b _

theorem sendLongCommand_keepsCell (c : Byte) : KeepsCell j b (sendLongCommand cfg c) :=
  (transfer_keepsCell hj hcfg false c).andThen fun _ => delay_keepsCell j b _

theorem sendDataList_keepsCell (bs : List Byte) : KeepsCell j b (sendDataList cfg bs) := by
  induction bs with
  | nil =>
    intro io a io' h hb
    cases h
    exact hb
  | cons p rest ih => exact (transfer_keepsCell hj hcfg true p).andThen fun _ => ih

end

/-! ### Runs that keep a known cell -/

/-- Where it completes, the run leaves cell j at b if it was at b. -/
def RunKeepsCell {α : Type} (j : Fin 8) (b : Bool) (x : DriverState → Io → Run α) : Prop :=
  ∀ d io a d' io', x d io = .ok a d' io' → io.latch[j] = some b → io'.latch[j] = some b

theorem RunKeepsCell.andThen {α β : Type} {j : Fin 8} {b : Bool} {x : DriverState → Io → Run α}
    {f : α → DriverState → Io → Run β} (hx : RunKeepsCell j b x) (hf : ∀ a, RunKeepsCell j b (f a)) :
    RunKeepsCell j b fun d io => (x d io).andThen f := by
  intro d io c d'' io'' h hb
  cases hr : x d io with
  | raised d' io' =>
    simp only [hr, run_andThen_raised] at h
    cases h
  | ok a d' io' =>
    simp only [hr, run_andThen_ok] at h
    exact hf a d' io' c d'' io'' h (hx d io a d' io' hr hb)

theorem runKeepsCell_pure {α : Type} (j : Fin 8) (b : Bool) (f : DriverState → α) (g : DriverState → DriverState) :
    RunKeepsCell j b fun d io => Run.ok (f d) (g d) io := by
  intro d io a d' io' h hb
  cases h
  exact hb

theorem KeepsCell.emit {α : Type} {j : Fin 8} {b : Bool} {x : Io → Xfer α} (hx : KeepsCell j b x) :
    RunKeepsCell j b (emit x) := by
  intro d io a d' io' h hb
  cases hr : x io with
  | failed io₁ =>
    rw [emit_failed hr] at h
    cases h
  | ok a₁ io₁ =>
    rw [emit_ok hr] at h
    cases h
    exact hx io a io' hr hb

/-- The registers may be changed before the run. -/
theorem RunKeepsCell.comap {α : Type} {j : Fin 8} {b : Bool} {x : DriverState → Io → Run α} (hx : RunKeepsCell j b x)
    (g : DriverState → DriverState) : RunKeepsCell j b fun d io => x (g d) io := fun d io => hx (g d) io

theorem KeepsCell.emitOnly {j : Fin 8} {b : Bool} {x : Config → Io → Xfer Unit} {cfg : Config}
    (hx : KeepsCell j b (x cfg)) : RunKeepsCell j b (emitOnly x cfg) :=
  hx.emit.andThen fun _ => runKeepsCell_pure j b (fun _ => 0x00) id

theorem returnCursor_keepsCell {j : Fin 8} {b : Bool} {x : DriverState → Io → Run Unit} (hx : RunKeepsCell j b x) :
    RunKeepsCell j b fun d io => returnCursor (x d io) :=
  hx.andThen fun _ => runKeepsCell_pure j b (fun d => d.cursorAddress) id

section
variable {j : Fin 8} {b : Bool} {cfg : Config} (hj : j = 5 ∨ j = 7) (hcfg : cfg.portReadModel = .latch)
include hj hcfg

theorem moveCursor_keepsCell (a : Byte) : RunKeepsCell j b (moveCursor cfg a) :=
  (transfer_keepsCell hj hcfg false _).emit.comap fun d => { d with cursorAddress := a }

theorem resync_keepsCell : RunKeepsCell j b (resync cfg) := fun d =>
  (transfer_keepsCell hj hcfg false (ddramPayload d.cursorAddress)).emit d

theorem doClear_keepsCell : RunKeepsCell j b (doClear cfg) :=
  (sendLongCommand_keepsCell hj hcfg _).emit.andThen fun _ => runKeepsCell_pure j b (fun _ => ()) _

theorem putByte_keepsCell (p : Byte) : RunKeepsCell j b (putByte cfg p) :=
  (transfer_keepsCell hj hcfg true p).emit.andThen fun _ => runKeepsCell_pure j b (fun _ => ()) _

theorem writeByte_keepsCell (p : Byte) : RunKeepsCell j b (writeByte cfg p) := by
  intro d io
  unfold writeByte
  split
  · exact moveCursor_keepsCell hj hcfg _ d io
  · exact putByte_keepsCell hj hcfg p d io

theorem writeBytes_keepsCell (msg : List Byte) : RunKeepsCell j b (writeBytes cfg msg) := by
  induction msg with
  | nil => exact runKeepsCell_pure j b (fun _ => ()) id
  | cons p rest ih => exact (writeByte_keepsCell hj hcfg p).andThen fun _ => ih

theorem setFlag_keepsCell (g : Group) (mask : Byte) (enabled : Bool) : RunKeepsCell j b (setFlag g mask enabled cfg) :=
  fun d => RunKeepsCell.andThen
    ((transfer_keepsCell hj hcfg false (g.payload (updateMask enabled mask (d.flags g)))).emit.comap
      fun d' => d'.withFlags g (updateMask enabled mask (d.flags g)))
    (fun _ => runKeepsCell_pure j b (fun _ => (0x00 : Byte)) id) d

theorem setFlagOperand_keepsCell (group mask enabled : Byte) :
    RunKeepsCell j b (setFlagOperand group mask enabled cfg) := by
  intro d io a d' io' h hb
  unfold setFlagOperand at h
  split at h
  · exact setFlag_keepsCell hj hcfg _ mask _ d io a d' io' h hb
  · cases h

end

/-! ### Every completed instruction -/

/-- A request that ends with status OK has completed its body. -/
theorem request_keepsCell {j : Fin 8} {b : Bool} {domain : Bool} {body : Config → DriverState → Io → Run Byte}
    {s t : State} (hbody : RunKeepsCell j b (body s.cfg)) (h : request domain body s = .next t)
    (hok : t.lastStatus = some .ok) (hb : s.io.latch[j] = some b) : t.io.latch[j] = some b := by
  rcases request_cases h with
    ⟨-, rfl⟩ | ⟨d, hd, -, ⟨-, rfl⟩ | ⟨-, v, d', io', hrun, rfl⟩ | ⟨-, d', io', -, rfl⟩⟩
  · exact hb
  · exact hb
  · exact hbody d s.io v d' io' hrun hb
  · simp [State.lastStatus] at hok

theorem placeholder_latch {s t : State} (h : placeholder s = .next t) : t.io.latch = s.io.latch := by
  cases h
  rfl

theorem execOpen_latch {busId selectId : Byte} {s t : State} (h : execOpen busId selectId s = .next t) :
    t.io.latch = s.io.latch := by
  cases hm : s.mode with
  | opened d hd =>
    simp only [execOpen, hm, Host.Outcome.next.injEq] at h
    exact h ▸ rfl
  | closed =>
    simp only [execOpen, hm, Host.Outcome.next.injEq, State.openFrom] at h
    subst h
    cases hf : (s.io.replyAt 0).fails with
    | false => rw [transportOpen_ok hf]; rfl
    | true => rw [transportOpen_failed hf]; rfl

/-- Under LATCH a known control bit stays through every completed instruction but CLOSE and those that write it. -/
theorem exec_keepsCell {i : Instr} {s t : State} {j : Fin 8} {b : Bool} (hj : j = 5 ∨ j = 7)
    (hrw : j = 5 → writesRw i = false) (hbl : j = 7 → writesBacklight i = false) (hcfg : s.cfg.portReadModel = .latch)
    (hi : i ≠ .closeSession) (h : exec i s = .next t) (hok : t.lastStatus = some .ok) (hb : s.io.latch[j] = some b) :
    t.io.latch[j] = some b := by
  have hrequest {domain : Bool} {body : Config → DriverState → Io → Run Byte} (hbody : RunKeepsCell j b (body s.cfg))
      (he : request domain body s = .next t) : t.io.latch[j] = some b := request_keepsCell hbody he hok hb
  have hpin {i : BitVec 3} (v : Bool) (hij : i.toNat ≠ j) : KeepsCell j b (writeLcdBit s.cfg i v) :=
    writeLcdBit_keepsCell b s.cfg v hij
  cases i with
  | closeSession => exact absurd rfl hi
  | openSession => exact execOpen_latch h ▸ hb
  | moveLeft | moveRight | leftJustify | rightJustify => exact placeholder_latch h ▸ hb
  | init | initNibble8Bit | initNibble4Bit => rcases hj with rfl | rfl <;> [cases hrw rfl; cases hbl rfl]
  | setRw =>
    rcases hj with rfl | rfl
    · cases hrw rfl
    · exact hrequest (hpin _ (by decide)).emitOnly h
  | setBacklight | backlightOn | backlightOff =>
    rcases hj with rfl | rfl
    · exact hrequest (hpin _ (by decide)).emitOnly h
    · cases hbl rfl
  | setRs | setEnable => exact hrequest (hpin _ (by rcases hj with rfl | rfl <;> decide)).emitOnly h
  | write msg =>
    exact hrequest (returnCursor_keepsCell
      ((resync_keepsCell hj hcfg).andThen fun _ => writeBytes_keepsCell hj hcfg msg)) h
  | writeCustomBitmap slot =>
    exact hrequest (returnCursor_keepsCell
      ((resync_keepsCell hj hcfg).andThen fun _ => putByte_keepsCell hj hcfg slot)) h
  | setCursor | setCursorAddress => exact hrequest (returnCursor_keepsCell (moveCursor_keepsCell hj hcfg _)) h
  | getCursorAddress => exact hrequest (returnCursor_keepsCell (runKeepsCell_pure j b (fun _ => ()) id)) h
  | clear =>
    exact hrequest ((doClear_keepsCell hj hcfg).andThen fun _ => runKeepsCell_pure j b (fun _ => 0x00) id) h
  | home =>
    exact hrequest ((sendLongCommand_keepsCell hj hcfg _).emit.andThen fun _ =>
      runKeepsCell_pure j b (fun _ => 0x00) _) h
  | setFlag group mask enabled => exact hrequest (setFlagOperand_keepsCell hj hcfg group mask enabled) h
  | displayOn | displayOff | cursorOn | cursorOff | blinkOn | blinkOff | leftToRight | rightToLeft | autoscrollOn
  | autoscrollOff => exact hrequest (setFlag_keepsCell hj hcfg _ _ _) h
  | storeCustomBitmap slot rows =>
    exact hrequest (KeepsCell.emitOnly
      ((transfer_keepsCell hj hcfg false _).andThen fun _ => sendDataList_keepsCell hj hcfg rows)) h
  | readSwitches => exact hrequest (readSwitchPort_keepsCell j b s.cfg).emit h
  | readSwitch n =>
    exact hrequest ((readSwitchPort_keepsCell j b s.cfg).emit.andThen fun v =>
      runKeepsCell_pure j b (fun _ => switchBit v n) id) h
  | sendByte p => exact hrequest (sendByte_keepsCell hj hcfg p).emitOnly h
  | sendCommand | sendData | data | entryModeSet | displayControl | cursorShift | functionSet | setCgramAddr
  | setDdramAddr => exact hrequest (transfer_keepsCell hj hcfg _ _).emitOnly h
  | clearDisplay | returnHome => exact hrequest (sendLongCommand_keepsCell hj hcfg _).emitOnly h

/-- Settles O21: the read/write bit is cell 5 of the latch and the backlight bit cell 7. -/
theorem controlBitsPersist : Obligations.ControlBitsPersist := by
  intro i s t hcfg hi h hok
  refine ⟨fun b hrw hb => ?_, fun b hbl hb => ?_⟩
  · exact exec_keepsCell (j := 5) (.inl rfl) (fun _ => hrw) (fun hne => absurd hne (by decide)) hcfg hi h hok hb
  · exact exec_keepsCell (j := 7) (.inr rfl) (fun hne => absurd hne (by decide)) (fun _ => hbl) hcfg hi h hok hb

end Sys2Proof.Machine

/-! SUPPORT. The record of one instruction and the two ports its events may touch (20_memory R37, R39, R46, R48, R49). -/

namespace Sys2Proof.Machine

/-- Settles O13: it is part of what `exec_ended` says of every instruction. -/
theorem everyInstructionEndsInOneResponse : Obligations.EveryInstructionEndsInOneResponse := by
  intro i s
  obtain ⟨t, evs, r, ht, he⟩ := exec_ended i s
  exact ⟨t, evs, r, ht, he.log, he.transport, he.drawn, he.cfg, he.requests⟩

/-! ### Which port an event touches -/

/-- Each event of a request, the failing one too, is one that the request may emit. -/
theorem Fits.of_mem {P : Event → Prop} {evs : List Event} {r : Response} (h : Fits P evs r) {e : Event} (he : e ∈ evs) :
    P e := by
  cases h with
  | completed evs v hc => exact (hc e he).2
  | raised evs last hc _ hP =>
    rcases List.mem_append.mp he with hbefore | hlast
    · exact (hc e hbefore).2
    · rw [List.mem_singleton.mp hlast]
      exact hP
  | checked st _ _ _ => cases he

theorem mayEmit_of_exec {i : Instr} {s t : State} {e : Event} (h : exec i s = .next t) (he : e ∈ s.newEvents t) :
    MayEmit s.cfg i e := by
  obtain ⟨evs, r, hended⟩ := ended_of_exec h
  rw [hended.newEvents] at he
  exact hended.fits.of_mem he

/-- A switch request reads the switch port and does nothing else (R39). -/
theorem MayEmit.of_switchRequest {cfg : Config} {i : Instr} {e : Event} (h : MayEmit cfg i e)
    (hi : isSwitchRequest i = true) : ∃ o, e = .rd cfg.switchPortReg o := by
  cases i with
  | readSwitches | readSwitch => exact h
  | _ => cases hi

/-- Every other instruction opens or closes the transport, or stays at the LCD port (R37, R48). -/
theorem MayEmit.of_not_switchRequest {cfg : Config} {i : Instr} {e : Event} (h : MayEmit cfg i e)
    (hi : isSwitchRequest i = false) : (∃ b se o, e = .tOpen b se o) ∨ (∃ o, e = .tClose o) ∨ AtLcdPort cfg e := by
  cases i with
  | readSwitches | readSwitch => cases hi
  | openSession => exact .inl h
  | closeSession => exact .inr (.inl h)
  | _ => exact .inr (.inr h)

/-- Settles O15: the instruction is a switch request or not, and either class may emit events at one port only. -/
theorem onlyTheTwoPortsAreTouched : Obligations.OnlyTheTwoPortsAreTouched := by
  intro i s t h e he
  have hmay : MayEmit s.cfg i e := mayEmit_of_exec h he
  cases hi : isSwitchRequest i with
  | true =>
    obtain ⟨o, rfl⟩ := hmay.of_switchRequest hi
    simp
  | false =>
    rcases hmay.of_not_switchRequest hi with ⟨b, se, o, rfl⟩ | ⟨o, rfl⟩ | hlcd
    · simp
    · simp
    · refine ⟨?_, ?_, ?_⟩
      · rintro reg v rfl
        exact hlcd
      · rintro reg v o rfl
        exact ⟨hlcd, rfl⟩
      · rintro reg b v o rfl
        exact ⟨hlcd, rfl⟩

end Sys2Proof.Machine

/-! SUPPORT. The encoding of frames: controller words by their most significant 1, requests by their code, and the two directions between
instructions and frames (30_encoding R71 to R81, R86, R88). -/

namespace Sys2Proof.Machine

/-! ### Controller words, decoded (R71, R80) -/

theorem decodeWord_returnHome (x : BitVec 1) : decodeWord (0b00000001#8 ++ x) = .ok (.returnHome x) := by
  simp [decodeWord, BitVec.getLsbD_append, BitVec.extractLsb'_append_eq_right, -BitVec.getLsbD_eq_getElem, -Nat.reduceAdd]

theorem decodeWord_entryModeSet (i s : BitVec 1) : decodeWord (0b0000001#7 ++ i ++ s) = .ok (.entryModeSet i s) := by
  simp [decodeWord, BitVec.getLsbD_append, BitVec.extractLsb'_append_eq_right, BitVec.extractLsb'_append_eq_of_le,
    -BitVec.getLsbD_eq_getElem, -Nat.reduceAdd]

theorem decodeWord_displayControl (d c b : BitVec 1) :
    decodeWord (0b000001#6 ++ d ++ c ++ b) = .ok (.displayControl d c b) := by
  simp [decodeWord, BitVec.getLsbD_append, BitVec.extractLsb'_append_eq_right, BitVec.extractLsb'_append_eq_of_le,
    -BitVec.getLsbD_eq_getElem, -Nat.reduceAdd]

theorem decodeWord_cursorShift (m r : BitVec 1) (x : BitVec 2) :
    decodeWord (0b00001#5 ++ m ++ r ++ x) = .ok (.cursorShift m r x) := by
  simp [decodeWord, BitVec.getLsbD_append, BitVec.extractLsb'_append_eq_right, BitVec.extractLsb'_append_eq_of_le,
    -BitVec.getLsbD_eq_getElem, -Nat.reduceAdd]

theorem decodeWord_functionSet (l n f : BitVec 1) (x : BitVec 2) :
    decodeWord (0b0001#4 ++ l ++ n ++ f ++ x) = .ok (.functionSet l n f x) := by
  simp [decodeWord, BitVec.getLsbD_append, BitVec.extractLsb'_append_eq_right, BitVec.extractLsb'_append_eq_of_le,
    -BitVec.getLsbD_eq_getElem, -Nat.reduceAdd]

theorem decodeWord_setCgramAddr (slot row : BitVec 3) :
    decodeWord (0b001#3 ++ slot ++ row) = .ok (.setCgramAddr slot row) := by
  simp [decodeWord, BitVec.getLsbD_append, BitVec.extractLsb'_append_eq_right, BitVec.extractLsb'_append_eq_of_le,
    -BitVec.getLsbD_eq_getElem, -Nat.reduceAdd]

theorem decodeWord_setDdramAddr (a : BitVec 7) : decodeWord (0b01#2 ++ a) = .ok (.setDdramAddr a) := by
  simp [decodeWord, BitVec.getLsbD_append, BitVec.extractLsb'_append_eq_right, -BitVec.getLsbD_eq_getElem, -Nat.reduceAdd]

theorem decodeWord_data (b : Byte) : decodeWord (1#1 ++ b) = .ok (.data b) := by
  simp [decodeWord, BitVec.getLsbD_append, BitVec.extractLsb'_append_eq_right, -BitVec.getLsbD_eq_getElem, -Nat.reduceAdd]

/-- Settles O6: the decoder's command for each place of the most significant 1. -/
theorem controllerWordsDecodeByTheirTopBit : Obligations.ControllerWordsDecodeByTheirTopBit :=
  ⟨rfl, decodeWord_returnHome, decodeWord_entryModeSet, decodeWord_displayControl, decodeWord_cursorShift,
    decodeWord_functionSet, decodeWord_setCgramAddr, decodeWord_setDdramAddr, decodeWord_data, rfl⟩

/-! ### Controller words, encoded: RS = 0 before the payload -/

/-- A 9-bit word is known by its number. -/
theorem controllerWord_eq {w w' : BitVec 9} (h : w.toNat = w'.toNat) : Frame.controllerWord w = .controllerWord w' :=
  congrArg Frame.controllerWord (BitVec.eq_of_toNat_eq h)

theorem encode_returnHome (x : BitVec 1) : encode (.returnHome x) = .controllerWord (0b00000001#8 ++ x) :=
  controllerWord_eq (by simp [returnHomeWord, BitVec.toNat_append, -Nat.reduceAdd])

theorem encode_entryModeSet (i s : BitVec 1) : encode (.entryModeSet i s) = .controllerWord (0b0000001#7 ++ i ++ s) :=
  controllerWord_eq (by simp [entryModeWord, BitVec.toNat_append, -Nat.reduceAdd])

theorem encode_displayControl (d c b : BitVec 1) :
    encode (.displayControl d c b) = .controllerWord (0b000001#6 ++ d ++ c ++ b) :=
  controllerWord_eq (by simp [displayControlWord, BitVec.toNat_append, -Nat.reduceAdd])

theorem encode_cursorShift (m r : BitVec 1) (x : BitVec 2) :
    encode (.cursorShift m r x) = .controllerWord (0b00001#5 ++ m ++ r ++ x) :=
  controllerWord_eq (by simp [cursorShiftWord, BitVec.toNat_append, -Nat.reduceAdd])

theorem encode_functionSet (l n f : BitVec 1) (x : BitVec 2) :
    encode (.functionSet l n f x) = .controllerWord (0b0001#4 ++ l ++ n ++ f ++ x) :=
  controllerWord_eq (by simp [functionSetWord, BitVec.toNat_append, -Nat.reduceAdd])

theorem encode_setCgramAddr (slot row : BitVec 3) :
    encode (.setCgramAddr slot row) = .controllerWord (0b001#3 ++ slot ++ row) :=
  controllerWord_eq (by simp [cgramWord, BitVec.toNat_append, -Nat.reduceAdd])

theorem encode_setDdramAddr (a : BitVec 7) : encode (.setDdramAddr a) = .controllerWord (0b01#2 ++ a) :=
  controllerWord_eq (by simp [ddramWord, BitVec.toNat_append, -Nat.reduceAdd])

theorem encode_data (b : Byte) : encode (.data b) = .controllerWord (1#1 ++ b) := rfl

/-- Settles O9: a request by its code and its operands' bytes, a word by its most significant 1 and its fields. -/
theorem decodeOfEncode : Obligations.DecodeOfEncode := by
  intro i
  cases i with
  | setCursor col row =>
    show Except.ok (Instr.setCursor (word32 _ _ _ _) (word32 _ _ _ _)) = _
    rw [word32_bytes, word32_bytes]
  | returnHome x => exact (congrArg decode (encode_returnHome x)).trans (decodeWord_returnHome x)
  | entryModeSet i s => exact (congrArg decode (encode_entryModeSet i s)).trans (decodeWord_entryModeSet i s)
  | displayControl d c b => exact (congrArg decode (encode_displayControl d c b)).trans (decodeWord_displayControl d c b)
  | cursorShift m r x => exact (congrArg decode (encode_cursorShift m r x)).trans (decodeWord_cursorShift m r x)
  | functionSet l n f x => exact (congrArg decode (encode_functionSet l n f x)).trans (decodeWord_functionSet l n f x)
  | setCgramAddr slot row => exact (congrArg decode (encode_setCgramAddr slot row)).trans (decodeWord_setCgramAddr slot row)
  | setDdramAddr a => exact (congrArg decode (encode_setDdramAddr a)).trans (decodeWord_setDdramAddr a)
  | data b => exact decodeWord_data b
  | _ => rfl

/-! ### A word from its most significant 1 and its fields -/

/-- The top bit of a number below 2 ^ (k + 1), as a quotient. -/
theorem getLsbD_eq_decide_div {m k : Nat} {w : BitVec m} (hlt : w.toNat < 2 ^ (k + 1)) :
    w.getLsbD k = decide (w.toNat / 2 ^ k = 1) := by
  have hdiv : w.toNat / 2 ^ k < 2 := Nat.div_lt_of_lt_mul (by rwa [← Nat.pow_succ])
  rw [BitVec.getLsbD, Nat.testBit_eq_decide_div_mod_eq, Nat.mod_eq_of_lt hdiv]

/-- A number whose top bit is clear is below that bit. -/
theorem toNat_lt_of_clear {m k : Nat} {w : BitVec m} (hlt : w.toNat < 2 ^ (k + 1)) (hk : ¬ w.getLsbD k = true) :
    w.toNat < 2 ^ k := by
  have hdiv : w.toNat / 2 ^ k < 2 := Nat.div_lt_of_lt_mul (by rwa [← Nat.pow_succ])
  rw [getLsbD_eq_decide_div hlt, decide_eq_true_iff] at hk
  exact (Nat.div_lt_one_iff (by positivity)).mp (Nat.lt_of_le_of_ne (Nat.lt_succ_iff.mp hdiv) hk)

/-- The bits from the most significant 1 up are the number 1. -/
theorem extractLsb'_eq_one {m k : Nat} {w : BitVec m} (n : Nat) (hlt : w.toNat < 2 ^ (k + 1)) (hk : w.getLsbD k = true) :
    w.extractLsb' k n = 1#n := by
  rw [getLsbD_eq_decide_div hlt, decide_eq_true_iff] at hk
  apply BitVec.eq_of_toNat_eq
  rw [BitVec.extractLsb'_toNat, Nat.shiftRight_eq_div_pow, hk, BitVec.toNat_ofNat]

/-- One test of the decoder, from the top bit down: where it succeeds the leading bits of the word are known. -/
theorem topBit_cases {m k : Nat} {w : BitVec m} {α : Type} {x y z : α} (n : Nat) (hlt : w.toNat < 2 ^ (k + 1))
    (h : (if w.getLsbD k = true then x else y) = z) :
    (w.extractLsb' k n = 1#n ∧ x = z) ∨ (w.toNat < 2 ^ k ∧ y = z) := by
  split at h
  next hk => exact .inl ⟨extractLsb'_eq_one n hlt hk, h⟩
  next hk => exact .inr ⟨toNat_lt_of_clear hlt hk, h⟩

/-- The leading bits up to the most significant 1 and the fields below it make up the word. -/
theorem encode_of_decodeWord {w : BitVec 9} {i : Instr} (h : decodeWord w = .ok i) : encode i = .controllerWord w := by
  unfold decodeWord at h
  have hlt : w.toNat < 2 ^ 9 := w.isLt
  rcases topBit_cases 1 hlt h with ⟨htop, h⟩ | ⟨hlt, h⟩
  · cases h
    simp only [encode_data, ← htop, BitVec.extractLsb'_append_extractLsb'_eq_extractLsb', BitVec.extractLsb'_eq_self]
  rcases topBit_cases 2 hlt h with ⟨htop, h⟩ | ⟨hlt, h⟩
  · cases h
    simp only [encode_setDdramAddr, ← htop, BitVec.extractLsb'_append_extractLsb'_eq_extractLsb', BitVec.extractLsb'_eq_self]
  rcases topBit_cases 3 hlt h with ⟨htop, h⟩ | ⟨hlt, h⟩
  · cases h
    simp only [encode_setCgramAddr, ← htop, BitVec.extractLsb'_append_extractLsb'_eq_extractLsb', BitVec.extractLsb'_eq_self]
  rcases topBit_cases 4 hlt h with ⟨htop, h⟩ | ⟨hlt, h⟩
  · cases h
    simp only [encode_functionSet, ← htop, BitVec.extractLsb'_append_extractLsb'_eq_extractLsb', BitVec.extractLsb'_eq_self]
  rcases topBit_cases 5 hlt h with ⟨htop, h⟩ | ⟨hlt, h⟩
  · cases h
    simp only [encode_cursorShift, ← htop, BitVec.extractLsb'_append_extractLsb'_eq_extractLsb', BitVec.extractLsb'_eq_self]
  rcases topBit_cases 6 hlt h with ⟨htop, h⟩ | ⟨hlt, h⟩
  · cases h
    simp only [encode_displayControl, ← htop, BitVec.extractLsb'_append_extractLsb'_eq_extractLsb', BitVec.extractLsb'_eq_self]
  rcases topBit_cases 7 hlt h with ⟨htop, h⟩ | ⟨hlt, h⟩
  · cases h
    simp only [encode_entryModeSet, ← htop, BitVec.extractLsb'_append_extractLsb'_eq_extractLsb', BitVec.extractLsb'_eq_self]
  rcases topBit_cases 8 hlt h with ⟨htop, h⟩ | ⟨hlt, h⟩
  · cases h
    simp only [encode_returnHome, ← htop, BitVec.extractLsb'_append_extractLsb'_eq_extractLsb', BitVec.extractLsb'_eq_self]
  rcases topBit_cases 9 hlt h with ⟨htop, h⟩ | ⟨-, h⟩
  · cases h
    exact congrArg Frame.controllerWord (htop.symm.trans BitVec.extractLsb'_eq_self)
  · cases h

/-! ### Requests from their code and their operands' bytes (R86) -/

section
variable {op : Byte} {n : Nat} {args : List Byte} {i : Instr} (hop : op.toNat = n)
include hop

theorem code_eq : op = BitVec.ofNat 8 n := BitVec.eq_of_toNat_eq (by rw [← hop]; simp)

theorem encode_of_noOperand {j : Instr} (hj : encode j = .request [BitVec.ofNat 8 n])
    (h : noOperand op j args = .ok i) : encode i = .request (op :: args) := by
  unfold noOperand at h
  split at h <;> cases h
  rw [code_eq hop, hj]

theorem encode_of_oneByte {f : Byte → Instr} (hf : ∀ a, encode (f a) = .request [BitVec.ofNat 8 n, a])
    (h : oneByte op f args = .ok i) : encode i = .request (op :: args) := by
  unfold oneByte at h
  split at h <;> cases h
  rw [code_eq hop, hf]

theorem encode_of_twoBytes {f : Byte → Byte → Instr} (hf : ∀ a b, encode (f a b) = .request [BitVec.ofNat 8 n, a, b])
    (h : twoBytes op f args = .ok i) : encode i = .request (op :: args) := by
  unfold twoBytes at h
  split at h <;> cases h
  rw [code_eq hop, hf]

theorem encode_of_threeBytes {f : Byte → Byte → Byte → Instr}
    (hf : ∀ a b c, encode (f a b c) = .request [BitVec.ofNat 8 n, a, b, c])
    (h : threeBytes op f args = .ok i) : encode i = .request (op :: args) := by
  unfold threeBytes at h
  split at h <;> cases h
  rw [code_eq hop, hf]

theorem encode_of_twoWords {f : BitVec 32 → BitVec 32 → Instr}
    (hf : ∀ a b, encode (f a b) = .request (BitVec.ofNat 8 n :: (bytes32 a ++ bytes32 b)))
    (h : twoWords op f args = .ok i) : encode i = .request (op :: args) := by
  unfold twoWords at h
  split at h <;> cases h
  rw [code_eq hop, hf, bytes32_word32, bytes32_word32]
  rfl

theorem encode_of_byteThenList {f : Byte → List Byte → Instr}
    (hf : ∀ a rest, encode (f a rest) = .request (BitVec.ofNat 8 n :: a :: rest))
    (h : byteThenList op f args = .ok i) : encode i = .request (op :: args) := by
  unfold byteThenList at h
  split at h <;> cases h
  rw [code_eq hop, hf]

end

theorem encode_of_decodeRequest {op : Byte} {args : List Byte} {i : Instr} (h : decodeRequest op args = .ok i) :
    encode i = .request (op :: args) := by
  unfold decodeRequest at h
  split at h
  case h_2 hop | h_3 hop | h_7 hop | h_8 hop | h_9 hop | h_10 hop | h_11 hop | h_12 hop | h_13 hop | h_14 hop
    | h_15 hop | h_16 hop | h_17 hop | h_18 hop | h_19 hop | h_20 hop | h_21 hop | h_25 hop | h_34 hop
    | h_35 hop | h_36 hop | h_37 hop => exact encode_of_noOperand hop rfl h
  case h_6 hop | h_24 hop | h_26 hop | h_27 hop | h_28 hop | h_29 hop | h_30 hop | h_31 hop | h_32 hop
    | h_33 hop => exact encode_of_oneByte hop (fun _ => rfl) h
  case h_1 hop => exact encode_of_twoBytes hop (fun _ _ => rfl) h
  case h_22 hop => exact encode_of_threeBytes hop (fun _ _ _ => rfl) h
  case h_5 hop => exact encode_of_twoWords hop (fun _ _ => rfl) h
  case h_23 hop => exact encode_of_byteThenList hop (fun _ _ => rfl) h
  case h_4 hop =>
    cases h
    rw [code_eq hop]
    rfl
  case h_38 => cases h

theorem encode_of_decodePortWrite {v : Byte} {i : Instr} (h : decodePortWrite v = .ok i) : encode i = .portWrite v := by
  unfold decodePortWrite at h
  split at h
  next hv =>
    cases h
    rw [hv, encode]
  next =>
    split at h
    next hv =>
      cases h
      rw [hv, encode]
    next => cases h

/-- Settles O10: one inversion of the decoder for each kind of frame. -/
theorem encodeOfDecode : Obligations.EncodeOfDecode := by
  intro f i h
  match f with
  | .request (op :: args) => exact encode_of_decodeRequest h
  | .request [] => cases h
  | .controllerWord w => exact encode_of_decodeWord h
  | .portWrite v => exact encode_of_decodePortWrite h

/-- Settles O7: each word evaluated. -/
theorem specWordsDecode : Obligations.SpecWordsDecode := by
  unfold Obligations.SpecWordsDecode
  decide

/-- Settles O8: each text evaluated. -/
theorem writtenRequestsAssemble : Obligations.WrittenRequestsAssemble := by
  unfold Obligations.WrittenRequestsAssemble
  decide

/-! ### Reserved codes (R88) -/

theorem decodeRequest_reserved {op : Byte} (args : List Byte) (h : op.toNat = 0 ∨ 0x26 ≤ op.toNat) :
    decodeRequest op args = .error (.reservedCode op) := by
  unfold decodeRequest
  split
  case h_38 => rfl
  all_goals omega

/-- Settles O4: the decoder names the code reserved, and the step answers that in either mode. -/
theorem reservedCodesAreRefused : Obligations.ReservedCodesAreRefused := by
  intro s op args rest hop hr
  have hd : decode (.request (op :: args)) = .error (.reservedCode op) := decodeRequest_reserved args hop
  rw [step, hr]
  simp only [hd]
  rfl

end Sys2Proof.Machine

/-! SUPPORT. Operand domains (30_encoding R89), bit requests and flag requests (30_encoding R87, R91, 41_transfer R137 to R140,
44_control R190 to R204). -/

namespace Sys2Proof.Machine

/-! ### Operand domains (R89) -/

/-- In a session an ill-formed instruction ends with ILLEGAL_REQUEST: only the four requests with a domain can be ill-formed. -/
theorem exec_illFormed {i : Instr} {s : State} {d : DriverState} {h : Handle} (hm : s.mode = .opened d h)
    (hi : i.wellFormed = false) : exec i s = .next (s.refusedWith .illegalRequest) := by
  cases i with
  | write | setFlag | storeCustomBitmap | readSwitch =>
    exact (congrArg (fun domain => request domain _ s) hi).trans (request_illegal hm)
  | _ => cases hi

theorem State.lastStatus_ne_of_log {t : State} {l : List Output} {r : Response} {e : Status}
    (h : t.io.log = l ++ [.response r]) (hr : r.status ≠ e) : t.lastStatus ≠ some e := by
  rw [State.lastStatus, State.lastResponse_of_log h, Option.map_some]
  exact fun he => hr (Option.some.inj he)

/-- A request whose operands are in its domain ends with NOT_OPEN, OK or a transport failure. -/
theorem request_inDomain_status {domain : Bool} {body : Config → DriverState → Io → Run Byte} {s t : State}
    (hdom : domain = true) (h : request domain body s = .next t) : t.lastStatus ≠ some .illegalRequest := by
  rcases request_cases h with
    ⟨-, rfl⟩ | ⟨d, hd, -, ⟨hfalse, -⟩ | ⟨-, v, d', io', -, rfl⟩ | ⟨-, d', io', -, rfl⟩⟩
  · exact State.lastStatus_ne_of_log rfl nofun
  · cases hdom.symm.trans hfalse
  · exact State.lastStatus_ne_of_log rfl nofun
  · exact State.lastStatus_ne_of_log rfl nofun

/-- CLOSE ends with NOT_OPEN, OK or a transport failure. -/
theorem execClose_status {s t : State} (h : execClose s = .next t) : t.lastStatus ≠ some .illegalRequest := by
  cases hm : s.mode with
  | closed =>
    simp only [execClose, hm, Host.Outcome.next.injEq] at h
    subst h
    exact State.lastStatus_ne_of_log rfl nofun
  | opened d hd =>
    simp only [execClose, hm, Host.Outcome.next.injEq, State.closeTransport] at h
    subst h
    cases transportClose s.discardSession.io <;> exact State.lastStatus_ne_of_log rfl nofun

/-- A well-formed instruction other than OPEN does not end with ILLEGAL_REQUEST. -/
theorem exec_wellFormed_status {i : Instr} {s t : State} (hi : i.wellFormed = true) (hopen : isOpen i = false)
    (h : exec i s = .next t) : t.lastStatus ≠ some .illegalRequest := by
  cases i with
  | openSession => cases hopen
  | closeSession => exact execClose_status h
  | moveLeft | moveRight | leftJustify | rightJustify =>
    cases h
    exact State.lastStatus_ne_of_log rfl nofun
  | _ => exact request_inDomain_status hi h

theorem groupOperand_cases {group : Byte} {g : Group} (h : groupOperand group = some g) :
    (group = 0 ∧ g = .dc) ∨ (group = 1 ∧ g = .em) := by
  unfold groupOperand at h
  split at h
  next h0 => exact .inl ⟨h0, by cases h; rfl⟩
  next =>
    split at h
    next h1 => exact .inr ⟨h1, by cases h; rfl⟩
    next => cases h

/-- Settles O24: each value outside its domain makes the instruction ill-formed, and no well-formed one ends so. -/
theorem operandsOutsideTheirDomainAreRefused : Obligations.OperandsOutsideTheirDomainAreRefused := by
  refine fun s d h hm => ⟨fun g m e hdc hem => exec_illFormed hm ?_, fun n hn => exec_illFormed hm ?_,
    fun msg hmsg => exec_illFormed hm ?_, fun slot rows hrows => exec_illFormed hm ?_,
    fun i t hi hopen he => exec_wellFormed_status hi hopen he⟩
  · refine Bool.eq_false_iff.mpr fun hdom => ?_
    obtain ⟨group, hg, hmask⟩ := setFlagDomain_iff.mp hdom
    rcases groupOperand_cases hg with ⟨h0, rfl⟩ | ⟨h1, rfl⟩
    · exact hdc ⟨h0, hmask⟩
    · exact hem ⟨h1, hmask⟩
  · exact decide_eq_false (by omega)
  · exact List.all_eq_false.mpr ⟨0x00, hmsg, by decide⟩
  · exact beq_false_of_ne hrows

/-! ### Bit requests (R87, R137 to R140, R203, R204) -/

/-- A completed bit write as a request of its own. -/
theorem request_writeLcdBit {s : State} {d : DriverState} {h : Handle} (pin : BitVec 3) (b : Bool)
    (hm : s.mode = .opened d h) (hok : s.io.transportOk 1) :
    request true (emitOnly fun cfg io => writeLcdBit cfg pin b io) s =
      .next (s.ended d h (s.io.afterBit s.cfg pin b) 0x00) :=
  request_ok hm (emitOnly_ok (writeLcdBit_ok pin b hok))

/-- Settles O35: the six requests are bit writes of their pins. -/
theorem pinRequestsComplete : Obligations.PinRequestsComplete := by
  intro s d h hm hok
  have hset (pin : BitVec 3) (v : Byte) : request true (setPinBody pin v) s =
      .next (s.ended d h (s.io.afterBit s.cfg pin (decide (v.toNat ≠ 0))) 0x00) := by
    rw [← boolOperand_eq_toNat_ne_zero]
    exact request_writeLcdBit pin _ hm hok
  exact ⟨hset pinRs, hset pinRw, hset pinE, hset pinBl, request_writeLcdBit pinBl true hm hok,
    request_writeLcdBit pinBl false hm hok⟩

/-! ### Flag requests (R190 to R202) -/

/-- SET_FLAG in its domain is set_flag of the group it names. -/
theorem exec_setFlag_eq {group mask : Byte} {g : Group} (hg : groupOperand group = some g)
    (hmask : mask &&& ~~~g.maskBits = 0) (enabled : Byte) (s : State) :
    exec (.setFlag group mask enabled) s = request true (setFlag g mask (boolOperand enabled)) s := by
  show request (setFlagDomain group mask) (setFlagOperand group mask enabled) s = _
  rw [setFlagDomain_iff.mpr ⟨g, hg, hmask⟩, setFlagOperand_eq hg]

theorem exec_setFlag_ok {s : State} {d : DriverState} {h : Handle} {group mask enabled v : Byte} {g : Group}
    (hm : s.mode = .opened d h) (hok : s.io.transportOk 8) (hg : groupOperand group = some g)
    (hmask : mask &&& ~~~g.maskBits = 0) (hv : updateMask (boolOperand enabled) mask (d.flags g) = v) :
    exec (.setFlag group mask enabled) s =
      .next (s.ended (d.withFlags g v) h (s.io.afterTransfer s.cfg false (g.payload v)) 0x00) := by
  rw [exec_setFlag_eq hg hmask]
  exact request_ok hm (setFlag_ok hok hv)

theorem updateMask_boolOperand (enabled mask old : Byte) :
    updateMask (boolOperand enabled) mask old = if enabled = 0 then old &&& ~~~mask else old ||| mask := by
  by_cases h0 : enabled = 0 <;> simp [updateMask, boolOperand, h0]

/-- Settles O53: SET_FLAG in its domain, for either group. -/
theorem setFlagCompletes : Obligations.SetFlagCompletes := fun _ _ _ _ _ _ hm hok =>
  ⟨fun hmask hv => exec_setFlag_ok (g := .dc) hm hok rfl hmask ((updateMask_boolOperand ..).trans hv.symm),
    fun hmask hv => exec_setFlag_ok (g := .em) hm hok rfl hmask ((updateMask_boolOperand ..).trans hv.symm)⟩

/-- Settles O59: each wrapper's code, and its set_flag or bit write as the expansion's. -/
theorem wrappersAreTheirExpansions : Obligations.WrappersAreTheirExpansions := by
  refine ⟨rfl, fun s => ?_⟩
  have hdc {mask : Byte} (hmask : mask &&& ~~~Group.dc.maskBits = 0) (enabled : Byte) :
      request true (setFlag .dc mask (boolOperand enabled)) s = exec (.setFlag 0 mask enabled) s :=
    (exec_setFlag_eq rfl hmask enabled s).symm
  have hem {mask : Byte} (hmask : mask &&& ~~~Group.em.maskBits = 0) (enabled : Byte) :
      request true (setFlag .em mask (boolOperand enabled)) s = exec (.setFlag 1 mask enabled) s :=
    (exec_setFlag_eq rfl hmask enabled s).symm
  exact ⟨hdc (by decide) 1, hdc (by decide) 0, hdc (by decide) 1, hdc (by decide) 0, hdc (by decide) 1, hdc (by decide) 0,
    hem (by decide) 1, hem (by decide) 0, hem (by decide) 1, hem (by decide) 0, rfl, rfl⟩

/-! ### Payloads of flag requests (R71, R191) -/

/-- A register whose bits above the three flags are zero fills the fields of DISPLAYCONTROL. -/
theorem displayControlPayload_eq {v : Byte} (h : v &&& 0xF8 = 0) : displayControlPayload v =
    displayControlWord (v.extractLsb' 2 1) (v.extractLsb' 1 1) (v.extractLsb' 0 1) := by
  revert v
  decide

/-- A register whose bits above the two flags are zero fills the fields of ENTRYMODESET. -/
theorem entryModePayload_eq {v : Byte} (h : v &&& 0xFC = 0) : entryModePayload v =
    entryModeWord (v.extractLsb' 1 1) (v.extractLsb' 0 1) := by
  revert v
  decide

/-- Settles O58: the update keeps the hardwired bits, so that the payload is the group's command with the register's bits. -/
theorem flagPayloadsStayInTheirCommand : Obligations.FlagPayloadsStayInTheirCommand := by
  intro d g mask enabled hd hmask v hv
  have hkept : (d.withFlags g v).hardwired = true := FlagsWritten.keepsHardwired ⟨g, mask, enabled, hmask, hv ▸ rfl⟩ hd
  refine ⟨hkept, ?_⟩
  obtain ⟨hem, hdc, -⟩ := (DriverState.hardwired_iff _).mp hkept
  cases g with
  | dc =>
    rw [Group.payload, displayControlPayload_eq (v := v) hdc]
    exact decodeOfEncode (.displayControl _ _ _)
  | em =>
    rw [Group.payload, entryModePayload_eq (v := v) hem]
    exact decodeOfEncode (.entryModeSet _ _)

end Sys2Proof.Machine

/-! SUPPORT. CLOSE, and INIT: its end, the trace it shows, and the latch it leaves (40_init R111 to R114). -/

namespace Sys2Proof.Machine

/-! ### CLOSE (R111) -/

theorem transportClose_ok {io : Io} (h : (io.replyAt 0).fails = false) :
    transportClose io = .ok () (io.afterEvents io.latch [.tClose .ok] 1) := by
  have hr : io.reply.fails = false := h
  simp only [transportClose, hr, Bool.false_eq_true, if_false, Io.takeReply_record_eq']

theorem transportClose_failed {io : Io} (h : (io.replyAt 0).fails = true) :
    transportClose io = .failed (io.afterEvents io.latch [.tClose .failed] 1) := by
  have hr : io.reply.fails = true := h
  simp only [transportClose, hr, if_true, Io.takeReply_record_eq']

/-- In a session CLOSE discards it and then closes the transport. -/
theorem exec_close_opened {s : State} {d : DriverState} {h : Handle} (hm : s.mode = .opened d h) :
    exec .closeSession s = .next s.discardSession.closeTransport := by
  show execClose s = _
  rw [execClose, hm]

/-- Settles O27: CLOSE's three cases, by the mode and by TClose's answer, which discarding the session does not change. -/
theorem closeDiscardsTheSession : Obligations.CloseDiscardsTheSession := by
  refine ⟨rfl, fun s => ⟨fun d h hm hok => ?_, fun d h hm hfail => ?_, fun hm => exec_closed hm rfl (by decide)⟩⟩
  · have hclose := transportClose_ok (io := s.discardSession.io) hok
    rw [exec_close_opened hm, State.closeTransport, hclose]
    rfl
  · have hclose := transportClose_failed (io := s.discardSession.io) hfail
    rw [exec_close_opened hm, State.closeTransport, hclose]
    rfl

/-! ### INIT completed (R112) -/

theorem initBody_ok {cfg : Config} {d : DriverState} {io : Io} (h : io.transportOk 52) :
    initBody cfg d io = .ok 0x00 ⟨0x00, 0x02, 0x07, 0x08⟩ (io.afterInit cfg) := by
  have hrest : (io.afterInitNibbles cfg).transportOk 40 := by
    obtain ⟨evs, -, he⟩ := io.afterInitNibbles_eq cfg
    exact he ▸ ok_rest 12 40 h (latchAfterBeat 0x02) evs
  rw [initBody, emit_ok (initNibbles_ok (ok_mono h (by omega))), run_andThen_ok, initCommands_ok hrest, run_andThen_ok]
  rfl

/-- Settles O28: INIT's nibbles, then its commands. -/
theorem initCompletes : Obligations.InitCompletes := fun _ _ _ hm hok => request_ok hm (initBody_ok hok)

/-! ### Who writes the function-set register (R116) -/

/-- None of the next n answers fails, or there is a first one that does. -/
theorem Io.transportOk_or_first_failure (io : Io) (n : Nat) :
    io.transportOk n ∨ ∃ k, k < n ∧ io.transportOk k ∧ (io.replyAt k).fails = true := by
  induction n with
  | zero => exact .inl rfl
  | succ n ih =>
    rcases ih with hok | ⟨k, hk, hfirst⟩
    · cases hf : (io.replyAt n).fails with
      | true => exact .inr ⟨n, n.lt_succ_self, hok, hf⟩
      | false =>
        refine .inl ((io.transportOk_iff _).mpr fun k hk => ?_)
        rcases Nat.lt_succ_iff_lt_or_eq.mp hk with hlt | rfl
        · exact (io.transportOk_iff n).mp hok k hlt
        · exact hf
    · exact .inr ⟨k, Nat.lt_succ_of_lt hk, hfirst⟩

/-- INIT leaves the function set at 0x08, or fails before it has written it. -/
theorem exec_init_functionSet {s t : State} {d d' : DriverState} {h h' : Handle} (hm : s.mode = .opened d h)
    (he : exec .init s = .next t) (ht : t.mode = .opened d' h') :
    d'.functionSetFlags = 0x08 ∨
      (d'.functionSetFlags = d.functionSetFlags ∧ t.lastStatus = some .transportIoFailure) := by
  rcases s.io.transportOk_or_first_failure 52 with hok | ⟨n, hn, hok, hf⟩
  · cases he.symm.trans (initCompletes s d h hm hok)
    cases ht
    exact .inl rfl
  · obtain ⟨io, hfails, -⟩ := exec_init_fails hm hn hok hf
    cases he.symm.trans hfails
    cases ht
    by_cases hbefore : n < 12
    · exact .inr ⟨if_pos hbefore, by rw [State.lastStatus, State.lastResponse_answered]; rfl⟩
    · exact .inl (if_neg hbefore)

/-- The registers of two sessions before and after a change of the mode by R. -/
theorem Mode.ChangedBy.registers {R : DriverState → DriverState → Prop} {m m' : Mode} {d d' : DriverState}
    {h h' : Handle} (hc : m.ChangedBy R m') (hm : m = .opened d h) (hm' : m' = .opened d' h') : d' = d ∨ R d d' := by
  rcases hc with hkept | ⟨d₀, d₁, _, h₀, h₁, hR⟩
  · cases hm'.symm.trans (hkept.trans hm)
    exact .inl rfl
  · cases hm.symm.trans h₀
    cases hm'.symm.trans h₁
    exact .inr hR

/-- Every instruction but INIT that leaves a session in a session leaves the function set. -/
theorem exec_keeps_functionSet {i : Instr} {s t : State} {d d' : DriverState} {h h' : Handle} (hi : i ≠ .init)
    (hm : s.mode = .opened d h) (he : exec i s = .next t) (ht : t.mode = .opened d' h') :
    d'.functionSetFlags = d.functionSetFlags := by
  cases hc : changesMode i with
  | false =>
    cases ht.symm.trans ((exec_keeps_mode hc he).trans hm)
    rfl
  | true =>
    rcases changesMode_cases hc with ⟨b, se, rfl⟩ | rfl | rfl | hcur | hflag
    · obtain ⟨-, -, hrefused⟩ := openCreatesAZeroedSession s b se
      cases he.symm.trans (hrefused d h hm)
      cases ht.symm.trans hm
      rfl
    · cases ht.symm.trans (execClose_mode he)
    · exact absurd rfl hi
    · rcases (cursorRequest_changesMode hcur he).registers hm ht with rfl | ⟨_, rfl⟩ <;> rfl
    · rcases (flagRequest_changesMode hflag he).registers hm ht with rfl | ⟨g, _, _, -, rfl⟩
      · rfl
      · exact DriverState.withFlags_functionSet d g _

/-- Settles O19: INIT writes 0x08 or fails before its write, and every other instruction keeps the register. -/
theorem onlyInitWritesFunctionSet : Obligations.OnlyInitWritesFunctionSet := by
  intro i s t d d' h h' hm he ht
  refine ⟨fun hi => exec_keeps_functionSet hi hm he ht, fun hi => exec_init_functionSet hm (hi ▸ he) ht, fun h8 => ?_⟩
  by_cases hi : i = .init
  · rcases exec_init_functionSet hm (hi ▸ he) ht with hwritten | ⟨hkept, -⟩
    · exact hwritten
    · exact hkept.trans h8
  · exact (exec_keeps_functionSet hi hm he ht).trans h8

/-! ### The trace INIT shows (R113, R114) -/

theorem lowNibble_nibbleWrite (v : Byte) (n : Nibble) : lowNibble (nibbleWrite v n) = n := by
  have hkept : lowNibble (v &&& 0xF0) = 0 := by
    revert v
    decide
  have hdata : lowNibble (n.zeroExtend 8) = n := by
    revert n
    decide
  calc lowNibble (nibbleWrite v n)
      = lowNibble (v &&& 0xF0) ||| lowNibble (n.zeroExtend 8) := BitVec.extractLsb'_or
    _ = n := by rw [hkept, hdata]; exact BitVec.zero_or

/-- Between two interfaces come events, this many, that present these nibbles and last at least this long. -/
def Io.Shows (io io' : Io) (count : Nat) (nibbles : List Nibble) (duration : Nat) : Prop :=
  ∃ l evs n, io' = io.afterEvents l evs n ∧ evs.length = count ∧ nibblesOf evs = nibbles ∧ minDuration evs = duration

theorem Io.Shows.trans {a b c : Io} {k k' : Nat} {ns ns' : List Nibble} {t t' : Nat} (h : a.Shows b k ns t)
    (h' : b.Shows c k' ns' t') : a.Shows c (k + k') (ns ++ ns') (t + t') := by
  obtain ⟨_, evs, n, rfl, rfl, rfl, rfl⟩ := h
  obtain ⟨l, evs', n', rfl, rfl, rfl, rfl⟩ := h'
  exact ⟨l, evs ++ evs', n + n', a.afterEvents_afterEvents .., List.length_append, nibblesOf_append ..,
    minDuration_append ..⟩

section
variable (io : Io) (cfg : Config)

theorem Io.shows_afterDelay (ns : BitVec 32) : io.Shows (io.afterDelay ns) 1 [] ns.toNat :=
  ⟨_, _, _, rfl, rfl, rfl, rfl⟩

theorem Io.shows_afterBeat (v : Byte) : io.Shows (io.afterBeat cfg v) 5 [lowNibble v] (2 * cfg.tPulse.toNat) :=
  ⟨_, _, _, rfl, rfl, rfl, by simp only [beatTrace, pulseTrace, minDuration]; omega⟩

theorem nibblesOf_transferTrace (rs : Bool) (v p : Byte) :
    nibblesOf (transferTrace cfg rs v p) = [highNibble p, lowNibble p] := by
  have h : nibblesOf (transferTrace cfg rs v p) = [lowNibble (firstWrite v p), lowNibble (secondWrite v p)] := rfl
  rw [h, ← nibbleWrite_high, ← nibbleWrite_low, lowNibble_nibbleWrite, lowNibble_nibbleWrite]

/-- Transfers one after another: 13 events each, and the two nibbles of each payload, high before low. -/
theorem Io.shows_afterTransfers (ws : List (Bool × Byte)) :
    io.Shows (io.afterTransfers cfg ws) (13 * ws.length) (ws.flatMap fun w => [highNibble w.2, lowNibble w.2])
      (ws.length * (4 * cfg.tPulse.toNat + cfg.tSettle.toNat)) := by
  induction ws generalizing io with
  | nil => exact ⟨io.latch, [], 0, by simp [Io.afterTransfers, Io.afterEvents], rfl, rfl, (Nat.zero_mul _).symm⟩
  | cons w rest ih =>
    have hfirst : io.Shows (io.afterTransfer cfg w.1 w.2) 13 [highNibble w.2, lowNibble w.2]
        (4 * cfg.tPulse.toNat + cfg.tSettle.toNat) :=
      ⟨_, _, _, rfl, length_transferTrace .., nibblesOf_transferTrace .., minDuration_transferTrace ..⟩
    have h := hfirst.trans (ih (io.afterTransfer cfg w.1 w.2))
    rwa [Nat.add_comm 13, ← Nat.mul_succ, Nat.add_comm (4 * _ + _), ← Nat.succ_mul] at h

theorem Io.shows_afterInitNibbles : io.Shows (io.afterInitNibbles cfg) 23 [3, 3, 3, 2]
    (cfg.tSetup0.toNat + cfg.tSetup1.toNat + cfg.tSetup2.toNat + 8 * cfg.tPulse.toNat) := by
  have h := ((((((io.shows_afterDelay cfg.tSetup0).trans (Io.shows_afterBeat _ cfg 0x03)).trans
    (Io.shows_afterDelay _ cfg.tSetup1)).trans (Io.shows_afterBeat _ cfg 0x03)).trans
    (Io.shows_afterDelay _ cfg.tSetup2)).trans (Io.shows_afterBeat _ cfg 0x03)).trans (Io.shows_afterBeat _ cfg 0x02)
  obtain ⟨l, evs, n, he, hlen, hnib, hdur⟩ := h
  exact ⟨l, evs, n, he, hlen, hnib, by omega⟩

/-- INIT's 89 events: the nibbles, then three commands, the clear delay and two commands. -/
theorem Io.shows_afterInit : io.Shows (io.afterInit cfg) 89 [3, 3, 3, 2, 2, 8, 0, 8, 0, 1, 0, 6, 0, 15]
    (cfg.tSetup0.toNat + cfg.tSetup1.toNat + cfg.tSetup2.toNat + 28 * cfg.tPulse.toNat + 5 * cfg.tSettle.toNat +
      cfg.tClear.toNat) := by
  have h := (((io.shows_afterInitNibbles cfg).trans
    (Io.shows_afterTransfers _ cfg [(false, 0x28), (false, 0x08), (false, 0x01)])).trans
    (Io.shows_afterDelay _ cfg.tClear)).trans (Io.shows_afterTransfers _ cfg [(false, 0x06), (false, 0x0F)])
  obtain ⟨l, evs, n, he, hlen, hnib, hdur⟩ := h
  refine ⟨l, evs, n, he, hlen, hnib, ?_⟩
  simp only [List.length_cons, List.length_nil] at hdur
  omega

end

/-! ### The latch INIT leaves under LATCH (R114) -/

theorem lowNibble_clears_control (p : Byte) : p &&& 0x0F &&& 0xF0 = 0 := by
  rw [BitVec.and_assoc]
  exact BitVec.and_zero

/-- A byte without control bits has the enable line and the register-select line low. -/
theorem control_lines_low {v : Byte} (h : v &&& 0xF0 = 0) : v.getLsbD 4 = false ∧ v.getLsbD 6 = false := by
  revert v
  decide

/-- Writing a cell with the bit it holds. -/
theorem Latch.setCell_ofByte {v : Byte} {i : BitVec 3} {b : Bool} (h : v.getLsbD i.toNat = b) :
    (Latch.ofByte v).setCell i (some b) = Latch.ofByte v := by
  apply Vector.ext
  intro j hj
  rw [Latch.getElem_setCell]
  split
  next hij => rw [Latch.getElem_ofByte, ← hij, h]
  next => rfl

/-- A beat of a byte without control bits: the pulse leaves the enable line as the write did. -/
theorem latchAfterBeat_of_low {v : Byte} (h : v &&& 0xF0 = 0) : latchAfterBeat v = Latch.ofByte v :=
  Latch.setCell_ofByte (control_lines_low h).1

/-- Under LATCH a command on a port without control bits leaves its low nibble there, whatever stood below. -/
theorem Io.afterTransfer_latch_of_low {io : Io} {cfg : Config} {v : Byte} (hcfg : cfg.portReadModel = .latch)
    (hl : io.latch = Latch.ofByte v) (hv : v &&& 0xF0 = 0) (p : Byte) :
    (io.afterTransfer cfg false p).latch = Latch.ofByte (p &&& 0x0F) := by
  have hrs : (Latch.ofByte v).setCell 6 (some false) = Latch.ofByte v := Latch.setCell_ofByte (control_lines_low hv).2
  have hread : io.transferSnapshot cfg false = v := by
    rw [Io.transferSnapshot, hcfg, hl, hrs]
    exact Latch.readWith_ofByte ..
  have hwrite : secondWrite v p = p &&& 0x0F := by
    rw [secondWrite, hv]
    exact BitVec.zero_or
  rw [Io.afterTransfer, Io.afterEvents_latch, hread, hwrite]
  exact latchAfterBeat_of_low (lowNibble_clears_control p)

/-- Commands one after another leave the low nibble of the last. -/
theorem Io.afterTransfers_latch_of_low {io : Io} {cfg : Config} {v : Byte} (hcfg : cfg.portReadModel = .latch)
    (hl : io.latch = Latch.ofByte v) (hv : v &&& 0xF0 = 0) (ps : List Byte) (p : Byte) :
    (io.afterTransfers cfg (ps.map (false, ·) ++ [(false, p)])).latch = Latch.ofByte (p &&& 0x0F) := by
  induction ps generalizing io v with
  | nil => exact Io.afterTransfer_latch_of_low hcfg hl hv p
  | cons q rest ih => exact ih (Io.afterTransfer_latch_of_low hcfg hl hv q) (lowNibble_clears_control q)

theorem Io.afterDelay_latch (io : Io) (ns : BitVec 32) : (io.afterDelay ns).latch = io.latch := rfl

theorem Io.afterInit_latch (io : Io) {cfg : Config} (hcfg : cfg.portReadModel = .latch) :
    (io.afterInit cfg).latch = Latch.ofByte 0x0F := by
  have hnib : (io.afterInitNibbles cfg).latch = Latch.ofByte 0x02 := by
    obtain ⟨evs, -, he⟩ := io.afterInitNibbles_eq cfg
    rw [he, Io.afterEvents_latch, latchAfterBeat_of_low (by decide)]
  have hclear := Io.afterTransfers_latch_of_low hcfg hnib (by decide) [0x28, 0x08] 0x01
  rw [← Io.afterDelay_latch _ cfg.tClear] at hclear
  exact Io.afterTransfers_latch_of_low hcfg hclear (by decide) [0x06] 0x0F

theorem State.ended_latch (s : State) (d : DriverState) (h : Handle) (io : Io) (v : Byte) :
    (s.ended d h io v).io.latch = io.latch := rfl

/-- Settles O29: the trace put together from INIT's steps, and the latch from its last command. -/
theorem initTraceAndEndState : Obligations.InitTraceAndEndState := by
  intro s t d h hm hok he
  cases he.symm.trans (initCompletes s d h hm hok)
  obtain ⟨l, evs, n, hio, hlen, hnib, hdur⟩ := s.io.shows_afterInit s.cfg
  rw [State.newEvents_ended hio, State.ended_latch]
  exact ⟨hlen, hnib, hdur, s.io.afterInit_latch⟩

end Sys2Proof.Machine

/-! SUPPORT. Raw transfers: the requests that keep the mode register, a completed SEND_BYTE, and completed transfers with the payloads
of controller words as numbers (30_encoding R71 to R80, 41_transfer R131 to R136, R141). -/

namespace Sys2Proof.Machine

/-! ### Requests that keep the registers (R141) -/

theorem changesMode_of_keepsRegisters {i : Instr} (h : keepsRegisters i = true) : changesMode i = false := by
  cases i with
  | sendCommand | sendData | sendByte | setRs | setRw | setEnable | setBacklight | backlightOn | backlightOff
  | readSwitches | readSwitch | storeCustomBitmap | getCursorAddress
  | moveLeft | moveRight | leftJustify | rightJustify => rfl
  | _ => cases h

/-- Settles O17: these requests are outside the classes that change the mode. -/
theorem rawAndReadingRequestsKeepTheRegisters : Obligations.RawAndReadingRequestsKeepTheRegisters :=
  fun _ _ _ hi he => exec_keeps_mode (changesMode_of_keepsRegisters hi) he

/-! ### SEND_BYTE (R131, R134) -/

/-- Settles O33: SEND_BYTE emits one send_byte and nothing else. -/
theorem sendByteCompletes : Obligations.SendByteCompletes := fun _ _ _ b hm hok =>
  request_ok hm (emitOnly_ok (sendByte_ok b hok))

/-! ### Payloads of controller words as numbers (R71) -/

/-- Fields laid side by side, as a number. -/
theorem toNat_append_eq_add {m n : Nat} (x : BitVec m) (y : BitVec n) : (x ++ y).toNat = 2 ^ n * x.toNat + y.toNat := by
  rw [BitVec.toNat_append, ← Nat.shiftLeft_add_eq_or_of_lt y.isLt, Nat.shiftLeft_eq, Nat.mul_comm]

theorem eq_ofNat_of_toNat_eq {p : Byte} {n : Nat} (h : p.toNat = n) : p = BitVec.ofNat 8 n := by
  rw [← h, BitVec.ofNat_toNat, BitVec.setWidth_eq]

theorem entryModeWord_eq (i sh : BitVec 1) :
    entryModeWord i sh = BitVec.ofNat 8 (0x04 + 2 * i.toNat + sh.toNat) :=
  eq_ofNat_of_toNat_eq (by simp only [entryModeWord, toNat_append_eq_add, BitVec.toNat_ofNat]; omega)

theorem displayControlWord_eq (on c b : BitVec 1) :
    displayControlWord on c b = BitVec.ofNat 8 (0x08 + 4 * on.toNat + 2 * c.toNat + b.toNat) :=
  eq_ofNat_of_toNat_eq (by simp only [displayControlWord, toNat_append_eq_add, BitVec.toNat_ofNat]; omega)

theorem cursorShiftWord_eq (sc rl : BitVec 1) (x : BitVec 2) :
    cursorShiftWord sc rl x = BitVec.ofNat 8 (0x10 + 8 * sc.toNat + 4 * rl.toNat + x.toNat) :=
  eq_ofNat_of_toNat_eq (by simp only [cursorShiftWord, toNat_append_eq_add, BitVec.toNat_ofNat]; omega)

theorem functionSetWord_eq (dl n f : BitVec 1) (x : BitVec 2) :
    functionSetWord dl n f x = BitVec.ofNat 8 (0x20 + 16 * dl.toNat + 8 * n.toNat + 4 * f.toNat + x.toNat) :=
  eq_ofNat_of_toNat_eq (by simp only [functionSetWord, toNat_append_eq_add, BitVec.toNat_ofNat]; omega)

theorem cgramWord_eq (slot row : BitVec 3) :
    cgramWord slot row = BitVec.ofNat 8 (0x40 + 8 * slot.toNat + row.toNat) :=
  eq_ofNat_of_toNat_eq (by simp only [cgramWord, toNat_append_eq_add, BitVec.toNat_ofNat]; omega)

theorem ddramWord_eq (a : BitVec 7) : ddramWord a = BitVec.ofNat 8 (0x80 + a.toNat) :=
  eq_ofNat_of_toNat_eq (by simp only [ddramWord, toNat_append_eq_add, BitVec.toNat_ofNat]; omega)

/-! ### Completed transfers (R132, R133, R135, R136) -/

section
variable {s : State} {d : DriverState} {h : Handle} (hm : s.mode = .opened d h) (hok : s.io.transportOk 8)
include hm hok

/-- A completed transfer as a request of its own. -/
theorem request_transfer (rs : Bool) (p : Byte) : request true (emitOnly fun cfg io => transfer cfg rs p io) s =
    .next (s.ended d h (s.io.afterTransfer s.cfg rs p) 0x00) :=
  request_ok hm (emitOnly_ok (transfer_ok rs p hok))

/-- A completed command word whose payload is p. -/
theorem emitCommand_ok {w p : Byte} (hw : w = p) :
    emitCommand w s = .next (s.ended d h (s.io.afterTransfer s.cfg false p) 0x00) :=
  hw ▸ request_transfer hm hok false w

end

/-- Settles O31: each is one transfer, of its operand or of its word as a number. -/
theorem transfersComplete : Obligations.TransfersComplete := fun _ _ _ hm hok =>
  ⟨request_transfer hm hok false, request_transfer hm hok true,
    fun i sh => emitCommand_ok hm hok (entryModeWord_eq i sh),
    fun on c b => emitCommand_ok hm hok (displayControlWord_eq on c b),
    fun sc rl x => emitCommand_ok hm hok (cursorShiftWord_eq sc rl x),
    fun dl n f x => emitCommand_ok hm hok (functionSetWord_eq dl n f x),
    fun slot row => emitCommand_ok hm hok (cgramWord_eq slot row),
    fun a => emitCommand_ok hm hok (ddramWord_eq a),
    request_transfer hm hok true⟩

end Sys2Proof.Machine

/-! SUPPORT. The cursor requests: the address of a column and a row as a number, and each request completed, raised, or read back
(42_cursor R150 to R160, 43_text R180 to R182, 45_glyphs R222). -/

namespace Sys2Proof.Machine

/-! ### Reads keep the latch (10_state R27, R28) -/

/-- The event is a read of a port. -/
def IsRead (e : Event) : Prop := ∃ reg o, e = .rd reg o

theorem latchAfter_of_reads {l : Latch} {evs : List Event} (h : ∀ e ∈ evs, IsRead e) : latchAfter l evs = l := by
  induction evs with
  | nil => rfl
  | cons e rest ih =>
    obtain ⟨⟨_, _, rfl⟩, hrest⟩ := List.forall_mem_cons.mp h
    exact ih hrest

/-- A request that emits nothing but reads keeps the latch, whatever ends it. -/
theorem request_reads_keep_latch {domain : Bool} {body : Config → DriverState → Io → Run Byte} {s t : State}
    (hb : RunSound IsRead (body s.cfg)) (h : request domain body s = .next t) : t.io.latch = s.io.latch := by
  obtain ⟨t', evs, r, ht', he⟩ := request_ended (domain := domain) s fun _ => hb
  cases h.symm.trans ht'
  exact he.latch.trans (latchAfter_of_reads fun _ => he.fits.of_mem)

theorem switchRead_reads (cfg : Config) : RunSound IsRead (emit (readSwitchPort cfg)) :=
  emit_sound (readSwitchPort_sound IsRead cfg fun _ => ⟨_, _, rfl⟩)

/-- A switch request keeps the latch. -/
theorem switchRequest_latch {i : Instr} {s t : State} (hi : isSwitchRequest i = true) (h : exec i s = .next t) :
    t.io.latch = s.io.latch := by
  cases i with
  | readSwitches => exact request_reads_keep_latch (switchRead_reads s.cfg) h
  | readSwitch n =>
    exact request_reads_keep_latch
      ((switchRead_reads s.cfg).andThen fun v => RunSound.pure (fun _ => switchBit v n) id) h
  | _ => cases hi

theorem exec_placeholder {i : Instr} (hi : i ∈ placeholders) (s : State) : exec i s = placeholder s := by
  simp only [placeholders, List.mem_cons, List.not_mem_nil, or_false] at hi
  rcases hi with rfl | rfl | rfl | rfl <;> rfl

theorem keepsRegisters_of_switchRequest {i : Instr} (hi : isSwitchRequest i = true) : keepsRegisters i = true := by
  cases i with
  | readSwitches | readSwitch => rfl
  | _ => cases hi

/-- Settles O20: the switch requests and GET_CURSOR_ADDRESS emit at most reads, and a placeholder emits nothing. -/
theorem readsLeaveTheLatch : Obligations.ReadsLeaveTheLatch := by
  rintro i s t (hi | rfl | hi) h
  · exact ⟨switchRequest_latch hi h, rawAndReadingRequestsKeepTheRegisters i s t (keepsRegisters_of_switchRequest hi) h⟩
  · exact ⟨request_reads_keep_latch (returnCursor_sound (RunSound.pure (fun _ => ()) id)) h,
      rawAndReadingRequestsKeepTheRegisters _ s t rfl h⟩
  · rw [exec_placeholder hi] at h
    exact ⟨placeholder_latch h, placeholder_keeps_mode h⟩

/-! ### Geometry (R150 to R153, R155 to R157) -/

/-- A clamped operand, as an integer. -/
theorem clampTo_eq (m : Nat) (v : BitVec 32) : (clampTo m v : Int) = max 0 (min v.toInt m) :=
  Int.toNat_of_nonneg (le_max_left ..)

theorem clampTo_le (m : Nat) (v : BitVec 32) : clampTo m v ≤ m := by
  have h := clampTo_eq m v
  omega

/-- Clamping twice is clamping once, for every bound a signed operand can hold. -/
theorem clampTo_ofInt_clamped {m : Nat} (hm : m < 2 ^ 31) (v : BitVec 32) :
    clampTo m (BitVec.ofInt 32 (max 0 (min v.toInt m))) = clampTo m v := by
  have hin : (BitVec.ofInt 32 (max 0 (min v.toInt m))).toInt = max 0 (min v.toInt m) :=
    BitVec.toInt_ofInt_eq_self (by decide) (by omega) (by omega)
  rw [clampTo, hin, clampTo]
  omega

theorem rowOffset_eq {row : Nat} (h : row < 2) : rowOffset row = 0x40 * row := by
  rw [rowOffset]
  split <;> omega

theorem toNat_colrow2address {col row : Nat} (hc : col < 40) (hr : row < 2) :
    (colrow2address col row).toNat = col + 0x40 * row := by
  rw [colrow2address, rowOffset_eq hr, BitVec.toNat_ofNat]
  omega

theorem toNat_modRamWidth (a : Byte) : (modRamWidth a).toNat = a.toNat % 80 := by
  rw [modRamWidth, ramWidth, BitVec.toNat_ofNat]
  omega

/-- The address SET_CURSOR stores, as a number. -/
theorem toNat_cursorTarget (cfg : Config) (col row : BitVec 32) : (cursorTarget cfg col row).toNat =
    if cfg.setCursorWrap then (clampCol col + 0x40 * clampRow row) % 80 else clampCol col + 0x40 * clampRow row := by
  have haddr : (colrow2address (clampCol col) (clampRow row)).toNat = clampCol col + 0x40 * clampRow row :=
    toNat_colrow2address (Nat.lt_succ_of_le (clampTo_le 39 col)) (Nat.lt_succ_of_le (clampTo_le 1 row))
  rw [← haddr, ← toNat_modRamWidth]
  exact apply_ite BitVec.toNat ..

/-- Settles O45: the address as a number, then arithmetic. -/
theorem geometryRoundTrip : Obligations.GeometryRoundTrip := by
  refine ⟨fun col row hc hr => ?_, fun a => ⟨rfl, Nat.mod_lt _ (by decide), fun h => if_neg (by omega), fun h => if_pos h⟩⟩
  rw [address2col, address2row, toNat_colrow2address hc hr]
  refine ⟨by split <;> omega, by omega, fun hne => ?_⟩
  have hpair : ¬(col = 0 ∧ row = 1) := fun ⟨h0, h1⟩ => hne (by rw [h0, h1])
  split <;> omega

/-- Settles O46: the address as a number, and the bounds of the clamped column and row. -/
theorem cursorTargetsAndTheirRange : Obligations.CursorTargetsAndTheirRange := by
  intro cfg col row
  have hcol := clampTo_le 39 col
  have hrow := clampTo_le 1 row
  have hplain := toNat_cursorTarget { cfg with setCursorWrap := false } col row
  have hwrap := toNat_cursorTarget { cfg with setCursorWrap := true } col row
  simp only [if_true, Bool.false_eq_true, if_false, clampCol, clampRow] at hplain hwrap
  refine ⟨by omega, by omega, fun hsmall => BitVec.eq_of_toNat_eq ?_⟩
  have hc := clampTo_eq 39 col
  have hr := clampTo_eq 1 row
  rw [hplain, hwrap]
  omega

/-- SET_CURSOR reads its operands through their clamped values only. -/
theorem exec_setCursor_congr {col row col' row' : BitVec 32} (hc : clampCol col = clampCol col')
    (hr : clampRow row = clampRow row') (s : State) : exec (.setCursor col row) s = exec (.setCursor col' row') s := by
  have htarget (cfg : Config) : cursorTarget cfg col row = cursorTarget cfg col' row' := by
    rw [cursorTarget, cursorTarget, hc, hr]
  show request true (fun cfg d io => returnCursor (moveCursor cfg (cursorTarget cfg col row) d io)) s = _
  simp only [htarget]
  rfl

/-- Settles O43: SET_CURSOR depends on the clamped operands, and clamping is idempotent. -/
theorem outOfRangeCursorsAreClamped : Obligations.OutOfRangeCursorsAreClamped :=
  ⟨fun v => ⟨clampTo_eq 39 v, clampTo_eq 1 v⟩,
    fun s col row => exec_setCursor_congr (clampTo_ofInt_clamped (m := 39) (by decide) col).symm
      (clampTo_ofInt_clamped (m := 1) (by decide) row).symm s,
    exec_setCursor_congr (by decide) (by decide)⟩

/-! ### The address is stored before it is sent (R155, R157) -/

/-- A cursor move leaves its address in the register, whatever the transport does. -/
theorem moveCursor_leaves (cfg : Config) (a : Byte) (d : DriverState) (io : Io) :
    (returnCursor (moveCursor cfg a d io)).Leaves { d with cursorAddress := a } :=
  returnCursor_leaves (emit_leaves ..)

/-- Settles O41: both requests are cursor moves. -/
theorem cursorMovesStoreBeforeSending : Obligations.CursorMovesStoreBeforeSending := fun _ _ _ _ hm =>
  ⟨fun _ _ he => request_leaves hm (moveCursor_leaves ..) he, fun _ he => request_leaves hm (moveCursor_leaves ..) he⟩

/-! ### The cursor written after the last event (R159, R160, R222) -/

/-- A run that raises leaves the registers d. -/
def Run.RaisesIn {α : Type} (d : DriverState) : Run α → Prop
  | .ok _ _ _ => True
  | .raised d' _ => d' = d

theorem Run.Leaves.raisesIn {α : Type} {d : DriverState} {r : Run α} (h : r.Leaves d) : r.RaisesIn d := by
  cases r with
  | ok => trivial
  | raised => exact h

theorem Run.Leaves.andThen_raisesIn {α β : Type} {d : DriverState} {r : Run α} {f : α → DriverState → Io → Run β}
    (h : r.Leaves d) (hf : ∀ a io, (f a d io).RaisesIn d) : (r.andThen f).RaisesIn d := by
  cases r with
  | raised => exact h
  | ok a d' io =>
    obtain rfl : d' = d := h
    exact hf a io

theorem Run.RaisesIn.andThen_ok {α β : Type} {d : DriverState} {r : Run α} {f : α → DriverState → β}
    {g : DriverState → DriverState} (h : r.RaisesIn d) : (r.andThen fun a d io => .ok (f a d) (g d) io).RaisesIn d := by
  cases r with
  | ok => trivial
  | raised => exact h

/-- A transport failure of a request that writes no register before its last event keeps the mode. -/
theorem request_failed_keeps_mode {domain : Bool} {body : Config → DriverState → Io → Run Byte} {s t : State}
    (hb : ∀ d io, (body s.cfg d io).RaisesIn d) (h : request domain body s = .next t)
    (hst : t.lastStatus = some .transportIoFailure) : t.mode = s.mode := by
  rcases request_cases h with
    ⟨-, rfl⟩ | ⟨d, hd, hm, ⟨-, rfl⟩ | ⟨-, v, d', io', -, rfl⟩ | ⟨-, d', io', hrun, rfl⟩⟩
  · rfl
  · rfl
  · exact absurd hst (State.lastStatus_ne_of_log rfl nofun)
  · have hd' := hb d s.io
    rw [hrun] at hd'
    rw [hm, ← show d' = d from hd']
    rfl

theorem putByte_raisesIn (cfg : Config) (b : Byte) (d : DriverState) (io : Io) : (putByte cfg b d io).RaisesIn d :=
  (emit_leaves ..).raisesIn.andThen_ok

theorem doClear_raisesIn (cfg : Config) (d : DriverState) (io : Io) : (doClear cfg d io).RaisesIn d :=
  (emit_leaves ..).raisesIn.andThen_ok

/-- Settles O42: in each of the three the cursor is written in the part after the last event. -/
theorem failuresBeforeTheCursorWriteKeepIt : Obligations.FailuresBeforeTheCursorWriteKeepIt := by
  rintro i s t (rfl | rfl | ⟨slot, rfl⟩) h hst
  · exact request_failed_keeps_mode (fun d io => (doClear_raisesIn s.cfg d io).andThen_ok) h hst
  · exact request_failed_keeps_mode (fun d io => (emit_leaves ..).raisesIn.andThen_ok) h hst
  · exact request_failed_keeps_mode (fun d io =>
      ((emit_leaves ..).andThen_raisesIn fun _ io => putByte_raisesIn s.cfg slot d io).andThen_ok) h hst

/-! ### Completed -/

section
variable {s : State} {d : DriverState} {h : Handle} (hm : s.mode = .opened d h)
include hm

/-- A completed cursor move as a request of its own, its target from the parameters. -/
theorem request_moveCursor (target : Config → Byte) {a : Byte} (ha : target s.cfg = a) (hok : s.io.transportOk 8) :
    request true (fun cfg d io => returnCursor (moveCursor cfg (target cfg) d io)) s =
      .next (s.ended { d with cursorAddress := a } h (s.io.afterTransfer s.cfg false (0x80 ||| a)) a) :=
  request_ok hm (by rw [ha, moveCursor_ok hok]; rfl)

/-- GET_CURSOR_ADDRESS returns the register. -/
theorem exec_getCursorAddress : exec .getCursorAddress s = .next (s.ended d h s.io d.cursorAddress) := request_ok hm rfl

end

/-- Settles O38: a cursor move to the target, which as a number is the address asked for. -/
theorem setCursorCompletes : Obligations.SetCursorCompletes := by
  rintro s d h col row hm hok c r rfl rfl a ha
  exact request_moveCursor hm (cursorTarget · col row)
    (BitVec.eq_of_toNat_eq ((toNat_cursorTarget s.cfg col row).trans ha.symm)) hok

/-- Settles O39: a cursor move to the operand modulo 80, and the register read. -/
theorem cursorAddressRequestsComplete : Obligations.CursorAddressRequestsComplete := fun _ _ _ hm =>
  ⟨fun addr _ ha hok => request_moveCursor hm (fun _ => modRamWidth addr)
    (BitVec.eq_of_toNat_eq ((toNat_modRamWidth addr).trans ha.symm)) hok, exec_getCursorAddress hm⟩

/-- Settles O44: the address stands in the register, completed or not, and GET_CURSOR_ADDRESS returns the register. -/
theorem getAfterSetCursorAddress : Obligations.GetAfterSetCursorAddress := by
  intro s t d h addr hm he
  have hmode := (cursorMovesStoreBeforeSending s t d h hm).2 addr he
  exact ⟨_, exec_getCursorAddress hmode, State.lastResponse_of_log rfl⟩

/-- Settles O40: the long command, then the cursor at 0x00. -/
theorem clearAndHomeComplete : Obligations.ClearAndHomeComplete := fun _ _ _ hm hok =>
  ⟨request_ok hm (by rw [doClear_ok hok]; rfl), request_ok hm (by rw [emit_ok (sendLongCommand_ok _ hok)]; rfl)⟩

/-- Settles O52: the re-sync, then the slot as one data byte. -/
theorem writeCustomBitmapCompletes : Obligations.WriteCustomBitmapCompletes := fun _ _ _ _ hm hok =>
  request_ok hm (by
    rw [resync_ok (ok_mono hok (by decide)), run_andThen_ok, putByte_ok (ok_afterTransfer hok _ _ _)]
    rfl)

theorem writeDomain_of_notMem {msg : List Byte} (h : 0x00 ∉ msg) : writeDomain msg = true :=
  List.all_eq_true.mpr fun _ hb => bne_iff_ne.mpr fun h0 => h (h0 ▸ hb)

/-- Settles O47: the message is in its domain; the re-sync, then the bytes one after another. -/
theorem writeCompletes : Obligations.WriteCompletes := by
  intro s d h msg hm hmsg hok
  rw [Nat.mul_add, Nat.mul_one] at hok
  show request (writeDomain msg) _ s = _
  rw [writeDomain_of_notMem hmsg]
  refine request_ok hm ?_
  rw [resync_ok (ok_mono hok (by omega)), run_andThen_ok, writeBytes_ok msg (ok_afterTransfer hok ..)]
  rfl

end Sys2Proof.Machine

/-! SUPPORT. The trace of a completed WRITE: how many events it shows and how long they last (43_text R184). -/

namespace Sys2Proof.Machine

/-- A message is its newlines and its other bytes. -/
theorem count_newline_add_length_others (msg : List Byte) :
    msg.count 0x0A + (msg.filter (· ≠ 0x0A)).length = msg.length := by
  rw [msg.length_eq_length_filter_add (· == 0x0A), List.count_eq_length_filter]
  simp only [ne_eq, decide_not, beq_eq_decide]

/-- Settles O49: the re-sync and one transfer for each byte of the message, newline or not. -/
theorem writeEventCountAndDuration : Obligations.WriteEventCountAndDuration := by
  rintro s t d h msg k n hm hmsg hok he rfl rfl
  cases he.symm.trans (writeCompletes s d h msg hm hmsg hok)
  obtain ⟨l, evs, m, hio, hlen, -, hdur⟩ :=
    s.io.shows_afterTransfers s.cfg ((false, 0x80 ||| d.cursorAddress) :: msg.map transferOfByte)
  have hcount : ((false, 0x80 ||| d.cursorAddress) :: msg.map transferOfByte).length =
      1 + msg.count 0x0A + (msg.filter (· ≠ 0x0A)).length := by
    rw [List.length_cons, List.length_map, Nat.add_assoc, count_newline_add_length_others, Nat.add_comm]
  rw [hcount] at hlen hdur
  rw [State.newEvents_ended hio]
  exact ⟨hlen, hdur⟩

end Sys2Proof.Machine

/-! SUPPORT. The wrappers of SET_FLAG: completed, and a flag set then cleared (44_control R190, R193 to R202). -/

namespace Sys2Proof.Machine

/-- A completed set_flag as a request of its own. -/
theorem request_setFlag {s : State} {d : DriverState} {h : Handle} (hm : s.mode = .opened d h)
    (hok : s.io.transportOk 8) (g : Group) (mask : Byte) (enabled : Bool) :
    request true (setFlag g mask enabled) s =
      .next (s.ended (d.withFlags g (updateMask enabled mask (d.flags g))) h
        (s.io.afterTransfer s.cfg false (g.payload (updateMask enabled mask (d.flags g)))) 0x00) :=
  request_ok hm (setFlag_ok hok rfl)

/-- Settles O54: each wrapper is set_flag of its bit in display_control_flags. -/
theorem displayWrappersComplete : Obligations.DisplayWrappersComplete := by
  refine ⟨⟨rfl, rfl, rfl, rfl, rfl, rfl⟩, fun s d h hm hok i v hiv => ?_⟩
  simp only [List.mem_cons, List.not_mem_nil, or_false, Prod.mk.injEq] at hiv
  have hset := request_setFlag hm hok .dc
  obtain ⟨rfl, rfl⟩ | ⟨rfl, rfl⟩ | ⟨rfl, rfl⟩ | ⟨rfl, rfl⟩ | ⟨rfl, rfl⟩ | ⟨rfl, rfl⟩ := hiv
  exacts [hset displayOnFlag true, hset displayOnFlag false, hset cursorOnFlag true, hset cursorOnFlag false,
    hset blinkOnFlag true, hset blinkOnFlag false]

/-- Settles O55: each wrapper is set_flag of its bit in entry_mode_flags. -/
theorem entryModeWrappersComplete : Obligations.EntryModeWrappersComplete := by
  refine ⟨⟨rfl, rfl, rfl, rfl⟩, fun s d h hm hok i v hiv => ?_⟩
  simp only [List.mem_cons, List.not_mem_nil, or_false, Prod.mk.injEq] at hiv
  have hset := request_setFlag hm hok .em
  obtain ⟨rfl, rfl⟩ | ⟨rfl, rfl⟩ | ⟨rfl, rfl⟩ | ⟨rfl, rfl⟩ := hiv
  exacts [hset entryLeft true, hset entryLeft false, hset entryShiftIncrement true, hset entryShiftIncrement false]

/-- Clearing a mask's bits undoes setting them, but for the mask's bits themselves. -/
theorem updateMask_clear_set (mask old : Byte) :
    updateMask false mask (updateMask true mask old) = old &&& ~~~mask := by
  refine BitVec.eq_of_getLsbD_eq fun i hi => ?_
  rw [updateMask_getLsbD _ _ _ _ hi, updateMask_getLsbD _ _ _ _ hi, BitVec.getLsbD_and, BitVec.getLsbD_not,
    decide_eq_true hi]
  cases mask.getLsbD i <;> simp

/-- Settles O57: each request leaves the register updated, completed or not, and the two updates clear the blink bit only. -/
theorem blinkOnThenOffKeepsTheOthers : Obligations.BlinkOnThenOffKeepsTheOthers := by
  intro s t u d h hm hon hoff
  have ht := request_leaves hm (setFlag_leaves .dc blinkOnFlag true s.cfg d s.io) hon
  have hu := request_leaves ht (setFlag_leaves .dc blinkOnFlag false t.cfg _ t.io) hoff
  exact hu.trans (congrArg (fun v => Mode.opened { d with displayControlFlags := v } h)
    (updateMask_clear_set blinkOnFlag d.displayControlFlags))

end Sys2Proof.Machine

/-! SUPPORT. STORE_CUSTOM_BITMAP: the CGRAM payload of a slot as a word of its low 3 bits, and the request completed (45_glyphs R220,
R221). -/

namespace Sys2Proof.Machine

/-! ### The CGRAM payload (R78, R221) -/

theorem toNat_cgramPayload (slot : Byte) : (cgramPayload slot).toNat = 0x40 + 8 * (slot.toNat % 8) := by
  have hmask : (slot &&& 0x07).toNat = slot.toNat % 8 := Nat.and_two_pow_sub_one_eq_mod _ 3
  have hshift : ((slot &&& 0x07) <<< 3).toNat = 8 * (slot.toNat % 8) := by
    rw [BitVec.toNat_shiftLeft, hmask, Nat.shiftLeft_eq]
    omega
  rw [cgramPayload, BitVec.toNat_or, hshift]
  exact (Nat.two_pow_add_eq_or_of_lt (i := 6) (by omega) 1).symm

theorem cgramPayload_eq (slot : Byte) : cgramPayload slot = BitVec.ofNat 8 (0x40 + 8 * (slot.toNat % 8)) :=
  eq_ofNat_of_toNat_eq (toNat_cgramPayload slot)

/-- The payload is SETCGRAMADDR of the slot's low 3 bits at row 0. -/
theorem cgramPayload_eq_word (slot : Byte) : cgramPayload slot = cgramWord (slot.extractLsb' 0 3) 0 := by
  rw [cgramPayload_eq, cgramWord_eq, BitVec.extractLsb'_toNat]
  rfl

theorem cgramPayload_congr {slot slot' : Byte} (h : slot.toNat % 8 = slot'.toNat % 8) :
    cgramPayload slot = cgramPayload slot' := by
  rw [cgramPayload_eq, cgramPayload_eq, h]

theorem decode_cgramPayload (slot : Byte) :
    decode (.controllerWord (0#1 ++ cgramPayload slot)) = .ok (.setCgramAddr (slot.extractLsb' 0 3) 0) := by
  rw [cgramPayload_eq_word]
  exact decodeOfEncode (.setCgramAddr (slot.extractLsb' 0 3) 0)

/-- The payload's low 6 bits are the CGRAM address. -/
theorem toNat_cgramPayload_address (slot : Byte) :
    ((cgramPayload slot).extractLsb' 0 6).toNat = (slot.toNat % 8) * 8 := by
  rw [BitVec.extractLsb'_toNat, toNat_cgramPayload, Nat.shiftRight_zero]
  omega

/-! ### STORE_CUSTOM_BITMAP (R220, R221) -/

/-- Settles O50: one command and then the rows as data, 1 + 8 transfers of 8 events. -/
theorem storeCustomBitmapCompletes : Obligations.StoreCustomBitmapCompletes := by
  intro s d h slot rows hm hrows hok
  have hrest : (s.io.afterTransfer s.cfg false (cgramPayload slot)).transportOk (8 * rows.length) := by
    rw [hrows]
    exact ok_afterTransfer hok ..
  show request (bitmapDomain rows) _ s = _
  rw [show bitmapDomain rows = true from beq_iff_eq.mpr hrows, ← cgramPayload_eq]
  refine request_ok hm (emitOnly_ok ?_)
  rw [sendCommand, transfer_ok _ _ (ok_mono hok (by decide)), andThen_ok, sendDataList_ok rows hrest]
  rfl

/-- Settles O51: the slot enters the request by its payload alone, which depends on the slot modulo 8. -/
theorem glyphSlotsAreMasked : Obligations.GlyphSlotsAreMasked := by
  refine ⟨fun s slot slot' rows hslot => ?_, fun slot =>
    ⟨decode_cgramPayload slot, toNat_cgramPayload_address slot, by omega⟩⟩
  show execStoreCustomBitmap slot rows s = execStoreCustomBitmap slot' rows s
  rw [execStoreCustomBitmap, execStoreCustomBitmap, cgramPayload_congr hslot]

end Sys2Proof.Machine

/-! SUPPORT. The switch requests: the bit of a byte, and the one read of the port as a run (46_switches R230, R231). -/

namespace Sys2Proof.Machine

theorem switchBit_eq (v n : Byte) : switchBit v n = if v.getLsbD n.toNat then 0x01 else 0x00 := by
  have hbit : switchBit v n = (BitVec.ofBool ((v >>> n.toNat).getLsbD 0)).setWidth 8 :=
    BitVec.and_one_eq_setWidth_ofBool_getLsbD
  rw [hbit, BitVec.getLsbD_ushiftRight, Nat.add_zero]
  cases v.getLsbD n.toNat <;> rfl

theorem switchDomain_of_le {n : Byte} (hn : n.toNat ≤ 7) : switchDomain n = true :=
  decide_eq_true (Nat.lt_succ_of_le hn)

theorem emit_readSwitchPort_ok {cfg : Config} {d : DriverState} {io : Io} (hok : io.transportOk 1) :
    emit (readSwitchPort cfg) d io = .ok (io.replyAt 0).byte d
      (io.afterEvents io.latch [.rd cfg.switchPortReg (some (io.replyAt 0).byte)] 1) :=
  emit_ok (readSwitchPort_ok hok)

/-- Settles O60: both requests are the one read of the port; READ_SWITCH goes on with bit n of the byte read. -/
theorem switchReadsComplete : Obligations.SwitchReadsComplete := by
  rintro s d h _ hm hok rfl
  have hread := emit_readSwitchPort_ok (cfg := s.cfg) (d := d) hok
  refine ⟨request_ok hm hread, fun n hn => ?_⟩
  show request (switchDomain n) _ s = _
  rw [switchDomain_of_le hn, ← switchBit_eq]
  refine request_ok hm ?_
  rw [hread, run_andThen_ok]

end Sys2Proof.Machine

/-! SUPPORT. The step by the decoder's answer (30_encoding R71, R81, R86, R88, 60_exceptions R253), the placeholders (47_unsupported R240
to R244), and the controller words and init nibbles run on their own (notes/assumptions/3.md, 4.md). -/

namespace Sys2Proof.Machine

/-! ### The step, by what the frame decodes to (R253) -/

theorem step_of_idle {s : State} (hr : s.requests = []) : step s = .next s := by
  rw [step, hr]
  rfl

section
variable {s : State} {f : Frame} {rest : List Frame} (hr : s.requests = f :: rest)
include hr

theorem step_of_decode_ok {i : Instr} (hd : decode f = .ok i) : step s = exec i (s.accept rest) := by
  rw [step, hr]
  simp only [hd]

theorem step_of_decode_error {e : DecodeError} (hd : decode f = .error e) : step s = rejectFrame e (s.accept rest) := by
  rw [step, hr]
  simp only [hd]

end

/-- Settles O3: a frame that decodes is taken and run; with no frame the block is idle. -/
theorem stepRunsTheDecodedInstruction : Obligations.StepRunsTheDecodedInstruction := fun _ =>
  ⟨fun _ _ _ hr hd => step_of_decode_ok hr hd, step_of_idle⟩

/-- Settles O5: `rejectFrame` stops on each decoding error but a reserved code, and no instruction stops. -/
theorem onlyFramesThatAreNoInstructionStop : Obligations.OnlyFramesThatAreNoInstructionStop := by
  refine fun s f rest hr => ⟨?_, ?_, ?_⟩
  · rintro (hd | ⟨op, hd⟩) <;> exact step_of_decode_error hr hd
  · rintro (hd | ⟨v, hd⟩) <;> exact step_of_decode_error hr hd
  · rintro (⟨i, hd⟩ | ⟨op, hd⟩)
    · obtain ⟨t, _, _, ht, -⟩ := exec_ended i (s.accept rest)
      exact ⟨t, (step_of_decode_ok hr hd).trans ht⟩
    · exact ⟨_, step_of_decode_error hr hd⟩

/-! ### The placeholders (R240) -/

theorem exec_placeholder_refused {i : Instr} (hi : i ∈ placeholders) (s : State) :
    exec i s = .next (s.refusedWith .notImplemented) := exec_placeholder hi s

/-- Settles O25: the codes 0x22 to 0x25 are the placeholders, and each is refused in either mode. -/
theorem placeholdersAnswerNotImplemented : Obligations.PlaceholdersAnswerNotImplemented :=
  ⟨rfl, rfl, rfl, rfl, fun s =>
    ⟨exec_placeholder_refused (by decide) s, exec_placeholder_refused (by decide) s,
      exec_placeholder_refused (by decide) s, exec_placeholder_refused (by decide) s⟩⟩

/-! ### Words run on their own -/

theorem isRequest_of_isOpen {i : Instr} (hi : isOpen i = true) : isRequest i = true := by
  cases i with
  | openSession => rfl
  | _ => cases hi

theorem isRequest_of_mem_placeholders : ∀ i ∈ placeholders, isRequest i = true := by decide

/-- A controller word or an init nibble is in no class that may change the mode. -/
theorem changesMode_of_word {i : Instr} (hi : isRequest i = false) : changesMode i = false := by
  cases i with
  | clearDisplay | returnHome | entryModeSet | displayControl | cursorShift | functionSet | setCgramAddr | setDdramAddr
  | data | initNibble8Bit | initNibble4Bit => rfl
  | _ => cases hi

/-- Settles O23: a word is neither OPEN nor a placeholder, and it keeps the mode register. -/
theorem wordsNeedASessionAndKeepTheRegisters : Obligations.WordsNeedASessionAndKeepTheRegisters := by
  refine fun i s hi => ⟨fun hm => exec_closed hm ?_ fun hmem => ?_, fun t => exec_keeps_mode (changesMode_of_word hi)⟩
  · exact Bool.eq_false_iff.mpr fun hopen => Bool.eq_false_iff.mp hi (isRequest_of_isOpen hopen)
  · exact Bool.eq_false_iff.mp hi (isRequest_of_mem_placeholders i hmem)

theorem returnHomeWord_eq (x : BitVec 1) : returnHomeWord x = BitVec.ofNat 8 (0x02 + x.toNat) :=
  eq_ofNat_of_toNat_eq (by simp only [returnHomeWord, toNat_append_eq_add, BitVec.toNat_ofNat]; omega)

/-- A completed command word that is followed by T_CLEAR, whose payload is p. -/
theorem emitLongCommand_ok {s : State} {d : DriverState} {h : Handle} (hm : s.mode = .opened d h)
    (hok : s.io.transportOk 8) {w p : Byte} (hw : w = p) : emitLongCommand w s =
      .next (s.ended d h ((s.io.afterTransfer s.cfg false p).afterDelay s.cfg.tClear) 0x00) :=
  hw ▸ request_ok hm (emitOnly_ok (sendLongCommand_ok w hok))

/-- Settles O32: each is one long command, RETURNHOME with its ignored bit. -/
theorem longCommandWordsComplete : Obligations.LongCommandWordsComplete := fun _ _ _ hm hok =>
  ⟨emitLongCommand_ok hm hok rfl, fun x => emitLongCommand_ok hm hok (returnHomeWord_eq x)⟩

/-- Settles O36: each is one beat. -/
theorem initNibblesAreOneBeat : Obligations.InitNibblesAreOneBeat := fun _ _ _ hm hok =>
  ⟨request_ok hm (emitOnly_ok (beat_ok 0x03 hok)), request_ok hm (emitOnly_ok (beat_ok 0x02 hok))⟩

end Sys2Proof.Machine

/-! SUPPORT. The enable line: every write of it that a pulse makes is followed at once by T_PULSE, wherever the request stops, because a
delay cannot fail (41_transfer R130, 70_reset R283). -/

namespace Sys2Proof.Machine

/-! ### Traces -/

/-- The event is no completed write of the enable line. -/
def LeavesEnable (e : Event) : Prop := ∀ reg v, e ≠ .wb reg pinE v .ok

theorem pulsesTimed_cons_of_leavesEnable {cfg : Config} {e : Event} (he : LeavesEnable e) (evs : List Event) :
    pulsesTimed cfg (e :: evs) = pulsesTimed cfg evs := by
  cases e with
  | wb reg bit v o =>
    cases o with
    | failed => rfl
    | ok =>
      have hbit : bit ≠ pinE := fun hbit => he reg v (hbit ▸ rfl)
      simp only [pulsesTimed, bne_iff_ne.mpr hbit, Bool.true_or, Bool.true_and]
  | tOpen | tClose | rd | wr | delay => rfl

theorem pulsesTimed_of_leavesEnable {cfg : Config} {evs : List Event} (h : ∀ e ∈ evs, LeavesEnable e) :
    pulsesTimed cfg evs = true := by
  induction evs with
  | nil => rfl
  | cons e rest ih =>
    obtain ⟨he, hrest⟩ := List.forall_mem_cons.mp h
    rw [pulsesTimed_cons_of_leavesEnable he, ih hrest]

/-! ### Sequences of events -/

/-- The interface a sequence leaves, completed or failed. -/
def Xfer.interface {α : Type} : Xfer α → Io
  | .ok _ io => io
  | .failed io => io

/-- io' is io with events whose pulses are timed. -/
def Io.TimedTo (cfg : Config) (io io' : Io) : Prop := ∃ evs, io.Added io' evs ∧ pulsesTimed cfg evs = true

theorem Io.TimedTo.refl (cfg : Config) (io : Io) : io.TimedTo cfg io := ⟨[], .nil io, rfl⟩

theorem Io.TimedTo.trans {cfg : Config} {a b c : Io} (h : a.TimedTo cfg b) (h' : b.TimedTo cfg c) : a.TimedTo cfg c := by
  obtain ⟨evs, hadd, ht⟩ := h
  obtain ⟨evs', hadd', ht'⟩ := h'
  exact ⟨evs ++ evs', hadd.trans hadd', pulsesTimed_append ht ht'⟩

/-- Whether it completes or fails, the sequence adds events whose pulses are timed. -/
def Timed {α : Type} (cfg : Config) (x : Io → Xfer α) : Prop := ∀ io : Io, io.TimedTo cfg (x io).interface

theorem Xfer.andThen_assoc {α β γ : Type} (x : Xfer α) (f : α → Io → Xfer β) (g : β → Io → Xfer γ) :
    (x.andThen f).andThen g = x.andThen fun a io => (f a io).andThen g := by
  cases x <;> rfl

theorem Timed.andThen {α β : Type} {cfg : Config} {x : Io → Xfer α} {f : α → Io → Xfer β} (hx : Timed cfg x)
    (hf : ∀ a, Timed cfg (f a)) : Timed cfg fun io => (x io).andThen f := by
  intro io
  have h := hx io
  show io.TimedTo cfg ((x io).andThen f).interface
  cases hr : x io with
  | failed io' =>
    rw [hr] at h
    exact h
  | ok a io' =>
    rw [hr] at h
    exact h.trans (hf a io')

/-- A sequence that completes no write of the enable line has no pulse to time. -/
theorem Sound.timed {α : Type} {x : Io → Xfer α} (hx : Sound LeavesEnable x) (cfg : Config) : Timed cfg x := by
  intro io
  have h := hx io
  cases hr : x io with
  | ok a io' =>
    rw [hr] at h
    obtain ⟨evs, hadd, hcalm⟩ := h
    exact ⟨evs, hadd, pulsesTimed_of_leavesEnable fun e he => (hcalm e he).2⟩
  | failed io' =>
    rw [hr] at h
    obtain ⟨evs, e, hadd, hcalm, -, -, he⟩ := h
    exact ⟨evs ++ [e], hadd, pulsesTimed_append (pulsesTimed_of_leavesEnable fun e' he' => (hcalm e' he').2)
      (pulsesTimed_of_leavesEnable (List.forall_mem_singleton.mpr he))⟩

section
variable (cfg : Config)

theorem delay_timed (ns : BitVec 32) : Timed cfg (delay ns) := (delay_sound _ ns nofun).timed cfg

theorem readLcdPort_timed : Timed cfg (readLcdPort cfg) := (readLcdPort_sound _ cfg fun _ => nofun).timed cfg

theorem readSwitchPort_timed : Timed cfg (readSwitchPort cfg) := (readSwitchPort_sound _ cfg fun _ => nofun).timed cfg

theorem writeLcdPort_timed (v : Byte) : Timed cfg (writeLcdPort cfg v) := (writeLcdPort_sound _ cfg v fun _ => nofun).timed cfg

theorem writeLcdBit_timed {pin : BitVec 3} (hpin : pin ≠ pinE) (b : Bool) : Timed cfg (writeLcdBit cfg pin b) :=
  (writeLcdBit_sound _ cfg pin b fun _ _ _ heq => hpin (by cases heq; rfl)).timed cfg

theorem Io.added_afterDelay (io : Io) (ns : BitVec 32) : io.Added (io.afterDelay ns) [.delay ns] := ⟨rfl, rfl, rfl, rfl⟩

/-- Half an enable pulse (R130): a failed write of the enable line is the last event, and a completed one is followed by T_PULSE. -/
theorem enableEdge_timed (b : Bool) :
    Timed cfg fun io => (writeLcdBit cfg pinE b io).andThen fun _ io => delay cfg.tPulse io := by
  intro io
  show io.TimedTo cfg ((writeLcdBit cfg pinE b io).andThen fun _ io => delay cfg.tPulse io).interface
  cases hf : (io.replyAt 0).fails with
  | true =>
    rw [writeLcdBit_failed pinE b hf]
    exact ⟨_, added_one rfl rfl, rfl⟩
  | false =>
    rw [writeLcdBit_ok pinE b (by simpa [Io.transportOk_iff] using hf), andThen_ok, delay_eq]
    have hwrite : io.Added (io.afterBit cfg pinE b) [.wb cfg.lcdPortReg pinE b .ok] := added_one rfl rfl
    exact ⟨_, hwrite.trans (Io.added_afterDelay _ cfg.tPulse), by simp [pulsesTimed]⟩

theorem pulseEnable_timed : Timed cfg (pulseEnable cfg) := by
  have hpulse := (enableEdge_timed cfg true).andThen fun _ => enableEdge_timed cfg false
  simp only [Xfer.andThen_assoc] at hpulse
  exact hpulse

theorem beat_timed (v : Byte) : Timed cfg (beat cfg v) := (writeLcdPort_timed cfg v).andThen fun _ => pulseEnable_timed cfg

theorem sendByte_timed (b : Byte) : Timed cfg (sendByte cfg b) :=
  (readLcdPort_timed cfg).andThen fun _ => (beat_timed cfg _).andThen fun _ => beat_timed cfg _

theorem transfer_timed (rs : Bool) (p : Byte) : Timed cfg (transfer cfg rs p) :=
  (writeLcdBit_timed cfg (by decide) rs).andThen fun _ => (sendByte_timed cfg p).andThen fun _ => delay_timed cfg _

theorem sendLongCommand_timed (c : Byte) : Timed cfg (sendLongCommand cfg c) :=
  (transfer_timed cfg false c).andThen fun _ => delay_timed cfg _

theorem sendDataList_timed (bs : List Byte) : Timed cfg (sendDataList cfg bs) := by
  induction bs with
  | nil => exact (Sound.pure ()).timed cfg
  | cons b rest ih => exact (transfer_timed cfg true b).andThen fun _ => ih

theorem initNibbles_timed : Timed cfg (initNibbles cfg) :=
  (delay_timed cfg _).andThen fun _ => (beat_timed cfg _).andThen fun _ => (delay_timed cfg _).andThen fun _ =>
    (beat_timed cfg _).andThen fun _ => (delay_timed cfg _).andThen fun _ => (beat_timed cfg _).andThen fun _ =>
      beat_timed cfg _

end

/-! ### Runs -/

/-- The interface a run leaves, completed or raised. -/
def Run.interface {α : Type} : Run α → Io
  | .ok _ _ io => io
  | .raised _ io => io

/-- Whether it completes or raises, the run adds events whose pulses are timed. -/
def RunTimed {α : Type} (cfg : Config) (x : DriverState → Io → Run α) : Prop :=
  ∀ (d : DriverState) (io : Io), io.TimedTo cfg (x d io).interface

theorem runTimed_pure {α : Type} (cfg : Config) (f : DriverState → α) (g : DriverState → DriverState) :
    RunTimed cfg fun d io => Run.ok (f d) (g d) io := fun _ io => .refl cfg io

theorem RunTimed.andThen {α β : Type} {cfg : Config} {x : DriverState → Io → Run α} {f : α → DriverState → Io → Run β}
    (hx : RunTimed cfg x) (hf : ∀ a, RunTimed cfg (f a)) : RunTimed cfg fun d io => (x d io).andThen f := by
  intro d io
  have h := hx d io
  show io.TimedTo cfg ((x d io).andThen f).interface
  cases hr : x d io with
  | raised d' io' =>
    rw [hr] at h
    exact h
  | ok a d' io' =>
    rw [hr] at h
    exact h.trans (hf a d' io')

theorem emit_interface {α : Type} (x : Io → Xfer α) (d : DriverState) (io : Io) :
    (emit x d io).interface = (x io).interface := by
  cases hr : x io with
  | ok a io' => rw [emit_ok hr]; rfl
  | failed io' => rw [emit_failed hr]; rfl

/-- Registers written, then events. -/
theorem Timed.emitAfter {α : Type} {cfg : Config} {x : Io → Xfer α} (hx : Timed cfg x) (g : DriverState → DriverState) :
    RunTimed cfg fun d io => emit x (g d) io := fun d io => (emit_interface x (g d) io).symm ▸ hx io

theorem Timed.emit {α : Type} {cfg : Config} {x : Io → Xfer α} (hx : Timed cfg x) : RunTimed cfg (emit x) :=
  hx.emitAfter id

theorem Timed.emitOnly {cfg : Config} {x : Config → Io → Xfer Unit} (hx : Timed cfg (x cfg)) :
    RunTimed cfg (emitOnly x cfg) :=
  hx.emit.andThen fun _ => runTimed_pure cfg (fun _ => 0x00) id

theorem returnCursor_timed {cfg : Config} {x : DriverState → Io → Run Unit} (hx : RunTimed cfg x) :
    RunTimed cfg fun d io => returnCursor (x d io) :=
  hx.andThen fun _ => runTimed_pure cfg (fun d => d.cursorAddress) id

section
variable (cfg : Config)

theorem moveCursor_timed (a : Byte) : RunTimed cfg (moveCursor cfg a) :=
  (transfer_timed cfg false _).emitAfter fun d => { d with cursorAddress := a }

theorem resync_timed : RunTimed cfg (resync cfg) := fun d =>
  (transfer_timed cfg false (ddramPayload d.cursorAddress)).emit d

theorem doClear_timed : RunTimed cfg (doClear cfg) :=
  (sendLongCommand_timed cfg _).emit.andThen fun _ => runTimed_pure cfg (fun _ => ()) _

theorem putByte_timed (b : Byte) : RunTimed cfg (putByte cfg b) :=
  (transfer_timed cfg true b).emit.andThen fun _ => runTimed_pure cfg (fun _ => ()) _

theorem writeByte_timed (b : Byte) : RunTimed cfg (writeByte cfg b) := by
  intro d io
  unfold writeByte
  split
  · exact moveCursor_timed cfg _ d io
  · exact putByte_timed cfg b d io

theorem writeBytes_timed (msg : List Byte) : RunTimed cfg (writeBytes cfg msg) := by
  induction msg with
  | nil => exact runTimed_pure cfg (fun _ => ()) id
  | cons b rest ih => exact (writeByte_timed cfg b).andThen fun _ => ih

theorem setFlag_timed (g : Group) (mask : Byte) (enabled : Bool) : RunTimed cfg (setFlag g mask enabled cfg) :=
  fun d => RunTimed.andThen
    ((transfer_timed cfg false (g.payload (updateMask enabled mask (d.flags g)))).emitAfter
      fun d' => d'.withFlags g (updateMask enabled mask (d.flags g)))
    (fun _ => runTimed_pure cfg (fun _ => (0x00 : Byte)) id) d

theorem setFlagOperand_timed (group mask enabled : Byte) : RunTimed cfg (setFlagOperand group mask enabled cfg) := by
  intro d io
  unfold setFlagOperand
  split
  · exact setFlag_timed cfg _ mask _ d io
  · exact .refl cfg io

theorem initCommands_timed : RunTimed cfg (initCommands cfg) :=
  ((transfer_timed cfg false _).emitAfter _).andThen fun _ =>
    ((transfer_timed cfg false _).emitAfter _).andThen fun _ =>
      (doClear_timed cfg).andThen fun _ =>
        ((transfer_timed cfg false _).emitAfter _).andThen fun _ => (transfer_timed cfg false _).emitAfter _

theorem initBody_timed : RunTimed cfg (initBody cfg) :=
  (initNibbles_timed cfg).emit.andThen fun _ =>
    (initCommands_timed cfg).andThen fun _ => runTimed_pure cfg (fun _ => 0x00) id

end

/-! ### Every instruction -/

theorem Io.TimedTo.newEvents {cfg : Config} {s t : State} {io : Io} {r : Response} (h : s.io.TimedTo cfg io)
    (ht : t.io.log = io.log ++ [.response r]) : pulsesTimed cfg (s.newEvents t) = true := by
  obtain ⟨evs, hadd, htimed⟩ := h
  rw [hadd.log] at ht
  rw [State.newEvents_of_log ht, htimed]

/-- A request with a timed body, whatever ends it. -/
theorem request_timed {domain : Bool} {body : Config → DriverState → Io → Run Byte} {s t : State}
    (hb : RunTimed s.cfg (body s.cfg)) (h : request domain body s = .next t) :
    pulsesTimed s.cfg (s.newEvents t) = true := by
  rcases request_cases h with
    ⟨-, rfl⟩ | ⟨d, hd, -, ⟨-, rfl⟩ | ⟨-, v, d', io', hrun, rfl⟩ | ⟨-, d', io', hrun, rfl⟩⟩
  · exact (Io.TimedTo.refl s.cfg s.io).newEvents rfl
  · exact (Io.TimedTo.refl s.cfg s.io).newEvents rfl
  all_goals
    have htimed := hb d s.io
    rw [hrun] at htimed
    exact htimed.newEvents rfl

/-- Settles O16: the enable line is written by pulses only, each half of which is a write and then T_PULSE. -/
theorem enablePulsesAreTimed : Obligations.EnablePulsesAreTimed := by
  intro i s t hi h
  cases i with
  | setEnable v => exact absurd rfl (hi v)
  | openSession =>
    refine pulsesTimed_of_leavesEnable fun e he => ?_
    obtain ⟨_, _, _, rfl⟩ := mayEmit_of_exec h he
    exact nofun
  | closeSession =>
    refine pulsesTimed_of_leavesEnable fun e he => ?_
    obtain ⟨_, rfl⟩ := mayEmit_of_exec h he
    exact nofun
  | moveLeft | moveRight | leftJustify | rightJustify =>
    cases h
    exact (Io.TimedTo.refl s.cfg s.io).newEvents rfl
  | init => exact request_timed (initBody_timed s.cfg) h
  | write msg =>
    exact request_timed (returnCursor_timed ((resync_timed s.cfg).andThen fun _ => writeBytes_timed s.cfg msg)) h
  | writeCustomBitmap slot =>
    exact request_timed (returnCursor_timed ((resync_timed s.cfg).andThen fun _ => putByte_timed s.cfg slot)) h
  | setCursor | setCursorAddress => exact request_timed (returnCursor_timed (moveCursor_timed s.cfg _)) h
  | getCursorAddress => exact request_timed (returnCursor_timed (runTimed_pure s.cfg (fun _ => ()) id)) h
  | clear => exact request_timed ((doClear_timed s.cfg).andThen fun _ => runTimed_pure s.cfg (fun _ => 0x00) id) h
  | home =>
    exact request_timed ((sendLongCommand_timed s.cfg _).emit.andThen fun _ =>
      runTimed_pure s.cfg (fun _ => 0x00) _) h
  | setFlag group mask enabled => exact request_timed (setFlagOperand_timed s.cfg group mask enabled) h
  | displayOn | displayOff | cursorOn | cursorOff | blinkOn | blinkOff | leftToRight | rightToLeft | autoscrollOn
  | autoscrollOff => exact request_timed (setFlag_timed s.cfg _ _ _) h
  | storeCustomBitmap slot rows =>
    exact request_timed (Timed.emitOnly
      ((transfer_timed s.cfg false _).andThen fun _ => sendDataList_timed s.cfg rows)) h
  | readSwitches => exact request_timed (readSwitchPort_timed s.cfg).emit h
  | readSwitch n =>
    exact request_timed ((readSwitchPort_timed s.cfg).emit.andThen fun v =>
      runTimed_pure s.cfg (fun _ => switchBit v n) id) h
  | setRs | setRw | setBacklight | backlightOn | backlightOff =>
    exact request_timed (writeLcdBit_timed s.cfg (by decide) _).emitOnly h
  | sendByte b => exact request_timed (sendByte_timed s.cfg b).emitOnly h
  | sendCommand | sendData | data | entryModeSet | displayControl | cursorShift | functionSet | setCgramAddr
  | setDdramAddr => exact request_timed (transfer_timed s.cfg _ _).emitOnly h
  | clearDisplay | returnHome => exact request_timed (sendLongCommand_timed s.cfg _).emitOnly h
  | initNibble8Bit | initNibble4Bit => exact request_timed (beat_timed s.cfg _).emitOnly h

end Sys2Proof.Machine
